-- ==== Sys2Proof/Word.lean ====
section
/-! DEFINITION. The word types of the two blocks (00_scope.md R5, R6): widths only, no meaning. -/

namespace Sys2Proof

/-- One byte of a record's payload (20_memory.md R21). -/
abbrev Byte := BitVec 8

/-- An instruction word, a value of `next_pc`, or a record address: 16 bits (R5 `WORD_W`, `PC_W`; R26). -/
abbrev Word16 := BitVec 16

/-- The data word of the bit-field unit: 32 bits, unsigned (R5 `BF_W`; R59). -/
abbrev Word32 := BitVec 32

/-- A bit position as the ports `bf_msp` and `bf_lsp` carry it: unsigned, 0 to 63 (R5 `POS_W`; R50). -/
abbrev Pos := BitVec 6

/-- A register index of the decoded ISA, 0 to 15 (R12, R36, R68 kind REG). -/
abbrev RegIdx := BitVec 4

/-- Rendered text: ASCII characters in order (49_rendering.md R134). -/
abbrev Text := List Char

end Sys2Proof
end

