-- ==== Sys2Proof/Syntax.lean ====
section
/-! DEFINITION. The names the hardware deals in: the output enumerations of the dispatch engine (41_dispatch.md R67,
R68) and `Instr`, one constructor per row of spec/opcode_table.json. -/

namespace Sys2Proof

/-- The mnemonic output `out.mnem` (R67). One name stands for one mnemonic text, so the immediate and the register
`mov`, `add` and `sub` share a name. -/
inductive Mnemonic where
  | unknown | ldr | str | bzs | bzc | bcs | bcc | bge | blt | b | bl | mov | movt | add | sub | adc | sbc
  | cmp | mvn | movs | msr | mrs | and | orr | eor | lsl | lsr
  deriving DecidableEq, Repr

/-- The form output `out.form`: the operand template (R32, R68). -/
inductive Form where
  | none | memi | memr | br | movi | r3 | ri4 | cmp | hi2 | msr | mrs | sh
  deriving DecidableEq, Repr

/-- The kind of one operand (R68). -/
inductive Kind where
  | none | reg | rega | imm | addr | psr
  deriving DecidableEq, Repr

/-- The two status-register names the decoded ISA shows (R15, R104): `word[4]` selects one. -/
inductive Psr where
  | cspr | spsr
  deriving DecidableEq, Repr

/-- One constructor per row of spec/opcode_table.json, in the table's order. Operands are the row's fields: every
register operand is a register INDEX (R36); the others have the width of their field (R31). What a word instruction does
here is what the dispatch engine outputs for it: the engine classifies, it never executes (R2). -/
inductive Instr where
  -- class 0 and 1 (42_load_store.md)
  | ldrImm (rd rn : RegIdx) (imm3 : BitVec 3)
  | ldrReg (rd rn rm : RegIdx)
  | strImm (rd rn : RegIdx) (imm3 : BitVec 3)
  | strReg (rd rn rm : RegIdx)
  -- class 2 (43_branch.md)
  | bzs (off10 : BitVec 10)
  | bzc (off10 : BitVec 10)
  | bcs (off10 : BitVec 10)
  | bcc (off10 : BitVec 10)
  | bge (off10 : BitVec 10)
  | blt (off10 : BitVec 10)
  | b (off10 : BitVec 10)
  | bl (off10 : BitVec 10)
  -- class 3 (44_move_immediate.md)
  | movImm (rd : RegIdx) (imm8 : BitVec 8)
  | movt (rd : RegIdx) (imm8 : BitVec 8)
  -- class 4 (45_arith_register.md)
  | addReg (rd rn rm : RegIdx)
  | subReg (rd rn rm : RegIdx)
  | adc (rd rn rm : RegIdx)
  | sbc (rd rn rm : RegIdx)
  -- class 5 (46_arith_imm_compare_hi.md)
  | addImm (rd rn : RegIdx) (imm4 : BitVec 4)
  | subImm (rd rn : RegIdx) (imm4 : BitVec 4)
  | movReg (rd rm : RegIdx)
  | mvn (rd rm : RegIdx)
  | movs (rd rm : RegIdx)
  | msrCspr (rm : RegIdx)
  | msrSpsr (rm : RegIdx)
  | mrsCspr (rd : RegIdx)
  | mrsSpsr (rd : RegIdx)
  | cmp (rn rm : RegIdx)
  -- class 6 and 7 (47_logical_shift.md)
  | andReg (rd rn rm : RegIdx)
  | orr (rd rn rm : RegIdx)
  | eor (rd rn rm : RegIdx)
  | lsl (rd rn : RegIdx) (shamt : BitVec 5)
  | lsr (rd rn : RegIdx) (shamt : BitVec 5)
  -- the eight unknown patterns of 30_encoding.md R38
  | unknownX1
  | unknownX2
  | unknownX3
  | unknownX4
  | unknownX5
  | unknownX6
  | unknownX7
  | unknownX8
  -- the two operations of the bit-field unit (40_bitfield.md R52, R54); their operands are the unit's input ports
  | bfGet
  | bfSet
  deriving DecidableEq, Repr

end Sys2Proof
end

