-- ==== Sys2Proof/Config.lean ====
section
/-! DEFINITION. The parameters of 00_scope.md R5: the fixed ones as constants, the OPEN ones (47_logical_shift.md R123,
93_implementation_defined.md U7, U8, U12) as the fields of `Params`, whose value `Params.spec` is the spec's machine.
Nothing of this hardware is a free value: no rule leaves an output open. -/

namespace Sys2Proof

/-- `POS_MAX`, the largest legal bit position (R5: "msp < 32"). -/
def Config.posMax : Nat := 31

/-- What SET does to bit `msp` (OPEN parameter `SET_TOP`, D5): `preserve` is the spec's machine, `clear` the logged
alternative of 90_conflicts.md C2. -/
inductive SetTop where
  | preserve | clear
  deriving DecidableEq, Repr

/-- A value of `LS_TABLE` (D8): what one selector value of classes 0 and 1 decodes to. -/
inductive LsCase where
  | imm | reg | unknown
  deriving DecidableEq, Repr

/-- A value of `HI_TABLE` (D18): what one `FN3` value of class 5 sub-case 2 decodes to. -/
inductive HiCase where
  | move (m : Mnemonic) | msr (p : Psr) | mrs (p : Psr) | unknown
  deriving DecidableEq, Repr

/-- `SHAMT_W` together with its `SHIFT_TABLE` (R123): a 5-bit amount leaves one selector bit, a 4-bit amount two.
`Mnemonic.unknown` in a table stands for "unknown". -/
inductive ShiftTable where
  | five (t : Fin 2 → Mnemonic)
  | four (t : Fin 4 → Mnemonic)

/-- The OPEN parameters of the dispatch engine (R5, R123, U8, U12). A claim for all values of them holds whatever the
reference's tables were (R123). -/
structure Params where
  lsTable : Fin 8 → LsCase
  hiTable : Fin 8 → HiCase
  logicalTable : Fin 4 → Mnemonic
  shiftTable : ShiftTable
  branchMask : Word16

/-- `LS_TABLE`, default (D8): 0 immediate, 4 and 5 register-indexed, the rest unknown. -/
def Params.lsDefault (n : Fin 8) : LsCase :=
  if n.val = 0 then .imm else if n.val = 4 ∨ n.val = 5 then .reg else .unknown

/-- `HI_TABLE`, default (D18, R104). -/
def Params.hiDefault (n : Fin 8) : HiCase :=
  if n.val = 0 then .move .mov
  else if n.val = 1 then .move .mvn
  else if n.val = 2 then .move .movs
  else if n.val = 4 then .msr .cspr
  else if n.val = 5 then .msr .spsr
  else if n.val = 6 then .mrs .cspr
  else if n.val = 7 then .mrs .spsr
  else .unknown

/-- `LOGICAL_TABLE`, default (D25, R115). -/
def Params.logicalDefault (n : Fin 4) : Mnemonic :=
  if n.val = 0 then .and else if n.val = 1 then .orr else if n.val = 2 then .eor else .unknown

/-- `SHIFT_TABLE` for `SHAMT_W` = 5, default (D26, R120). -/
def Params.shiftDefault (n : Fin 2) : Mnemonic := if n.val = 0 then .lsl else .lsr

/-- `BRANCH_MASK` (R5, R82): the 10-bit window. -/
def Config.branchMask : Word16 := 0x3FF#16

/-- The spec's machine: every OPEN parameter at its default. -/
def Params.spec : Params where
  lsTable := Params.lsDefault
  hiTable := Params.hiDefault
  logicalTable := Params.logicalDefault
  shiftTable := .five Params.shiftDefault
  branchMask := Config.branchMask

end Sys2Proof
end

