-- ==== Sys2Proof/Machine/BitField.lean ====
section
/-! DEFINITION. The bit-field unit's two functions (40_bitfield.md R51 to R55), the extraction the dispatch engine makes
with them (R57), and the multiplexers its dispatch tree is made of (41_dispatch.md R63). -/

namespace Sys2Proof.Machine

/-- The one failure of the bit-field unit (R140); its two causes are not told apart (R141). -/
inductive RangeError where
  | rangeError
  deriving DecidableEq, Repr

/-- The position check both operations make first (R51). Positions are natural numbers here, as R51 is written. -/
def rangeOk (msp lsp : Nat) : Bool := decide (lsp ≤ msp) && decide (msp ≤ Config.posMax)

/-- `mask(n)` = 2^n - 1 (00_scope.md R7): at n = 32 it is all ones, so the full-width case of R53 needs no special
treatment. -/
def mask (n : Nat) : Word32 := BitVec.ofNat 32 (2 ^ n - 1)

/-- GET, `get_bits(value, msp, lsp)` (R52): bits `lsp` to `msp` of `value`, right-aligned. -/
def getBits (value : Word32) (msp lsp : Nat) : Except RangeError Word32 :=
  if rangeOk msp lsp then .ok ((value >>> lsp) &&& mask (msp - lsp + 1)) else .error .rangeError

/-- The bits SET clears before it inserts: `lsp` to `msp - 1` in the spec's machine (R54, D5), `lsp` to `msp` under the
OPEN alternative `SET_TOP` = CLEAR (90_conflicts.md C2). -/
def clearedBits (top : SetTop) (msp lsp : Nat) : Word32 :=
  match top with
  | .preserve => mask (msp - lsp) <<< lsp
  | .clear => mask (msp - lsp + 1) <<< lsp

/-- SET with `SET_TOP` as an argument (R54 and U7). The inserted field is the low `msp - lsp` bits of the new value in
either case. -/
def setBitsWith (top : SetTop) (value : Word32) (msp lsp : Nat) (new : Word32) : Except RangeError Word32 :=
  if rangeOk msp lsp then
    .ok ((value &&& ~~~(clearedBits top msp lsp)) ||| ((new &&& mask (msp - lsp)) <<< lsp))
  else .error .rangeError

/-- SET, `set_bits(value, msp, lsp, new_value)` (R54), in the spec's machine. -/
def setBits (value : Word32) (msp lsp : Nat) (new : Word32) : Except RangeError Word32 :=
  setBitsWith .preserve value msp lsp new

/-- `word[hi:lo]` as the dispatch engine obtains it: GET of the zero-extended word (R57), cut to the field's width. Its
positions are constants with `lo ≤ hi ≤ 15`, so the error branch is never taken (R57). -/
def field (n : Nat) (word : Word16) (hi lo : Nat) : BitVec n :=
  match getBits (word.setWidth 32) hi lo with
  | .ok v => v.setWidth n
  | .error _ => 0#n

/-- A 2-way multiplexer (R63). -/
def mux2 {α : Type} (s : BitVec 1) (a0 a1 : α) : α := bif s.getLsbD 0 then a1 else a0

/-- A 4-way multiplexer (R63). -/
def mux4 {α : Type} (s : BitVec 2) (a0 a1 a2 a3 : α) : α :=
  bif s.getLsbD 1 then (bif s.getLsbD 0 then a3 else a2) else (bif s.getLsbD 0 then a1 else a0)

/-- An 8-way multiplexer (R63). -/
def mux8 {α : Type} (s : BitVec 3) (a0 a1 a2 a3 a4 a5 a6 a7 : α) : α :=
  bif s.getLsbD 2 then
    (bif s.getLsbD 1 then (bif s.getLsbD 0 then a7 else a6) else (bif s.getLsbD 0 then a5 else a4))
  else
    (bif s.getLsbD 1 then (bif s.getLsbD 0 then a3 else a2) else (bif s.getLsbD 0 then a1 else a0))

end Sys2Proof.Machine
end

