-- ==== Sys2Proof/WellFormed.lean ====
section
/-! DEFINITION. Which terms of `Instr` stand for an encoding. Every field but one is as wide as its type; the field `RN`
has three bits and names `r0` to `r7` only (10_state.md R12, 30_encoding.md R36). -/

namespace Sys2Proof

/-- A register index that the 3-bit field `RN` can hold (R12, R36). -/
def fitsRn (r : RegIdx) : Bool := decide (r.toNat < 8)

/-- A well-formed instruction: its base (first source) register, where it has one, fits the field `RN`. -/
def Instr.wf : Instr → Bool
  | .ldrImm _ rn _ => fitsRn rn
  | .ldrReg _ rn _ => fitsRn rn
  | .strImm _ rn _ => fitsRn rn
  | .strReg _ rn _ => fitsRn rn
  | .bzs _ => true
  | .bzc _ => true
  | .bcs _ => true
  | .bcc _ => true
  | .bge _ => true
  | .blt _ => true
  | .b _ => true
  | .bl _ => true
  | .movImm _ _ => true
  | .movt _ _ => true
  | .addReg _ rn _ => fitsRn rn
  | .subReg _ rn _ => fitsRn rn
  | .adc _ rn _ => fitsRn rn
  | .sbc _ rn _ => fitsRn rn
  | .addImm _ rn _ => fitsRn rn
  | .subImm _ rn _ => fitsRn rn
  | .movReg _ _ => true
  | .mvn _ _ => true
  | .movs _ _ => true
  | .msrCspr _ => true
  | .msrSpsr _ => true
  | .mrsCspr _ => true
  | .mrsSpsr _ => true
  | .cmp rn _ => fitsRn rn
  | .andReg _ rn _ => fitsRn rn
  | .orr _ rn _ => fitsRn rn
  | .eor _ rn _ => fitsRn rn
  | .lsl _ rn _ => fitsRn rn
  | .lsr _ rn _ => fitsRn rn
  | .unknownX1 => true
  | .unknownX2 => true
  | .unknownX3 => true
  | .unknownX4 => true
  | .unknownX5 => true
  | .unknownX6 => true
  | .unknownX7 => true
  | .unknownX8 => true
  | .bfGet => true
  | .bfSet => true

end Sys2Proof
end

