-- ==== Sys2Proof/Decode.lean ====
section
/-! DEFINITION. Decoding: the three-level dispatch of 41_dispatch.md R63 from a 16-bit word to an instruction
(30_encoding.md R31 to R34), the bit-field unit's operation select (40_bitfield.md R50), and after them an encoder written
from the same rows. Decoding a word never fails (R61): a word no row covers decodes to one of the eight unknown patterns. -/

namespace Sys2Proof

open Sys2Proof.Machine (field mux2 mux4 mux8)

/-- `CLS` = word[15:13] (R31, R33). -/
def fieldCls (w : Word16) : BitVec 3 := field 3 w 15 13
/-- `SUB3` = word[12:10] (R31). -/
def fieldSub3 (w : Word16) : BitVec 3 := field 3 w 12 10
/-- `SUB2` = word[12:11] (R31). -/
def fieldSub2 (w : Word16) : BitVec 2 := field 2 w 12 11
/-- `SUB1` = word[12] (R31). -/
def fieldSub1 (w : Word16) : BitVec 1 := field 1 w 12 12
/-- `FN3` = word[6:4] (R31). -/
def fieldFn3 (w : Word16) : BitVec 3 := field 3 w 6 4
/-- `RD` = word[3:0] (R31). -/
def fieldRd (w : Word16) : RegIdx := field 4 w 3 0
/-- `RN` = word[6:4], three bits: it names `r0` to `r7` (R31, R36). -/
def fieldRn (w : Word16) : RegIdx := field 4 w 6 4
/-- `RM` = word[10:7] (R31). -/
def fieldRm (w : Word16) : RegIdx := field 4 w 10 7
/-- `IMM3` = word[9:7] (R31). -/
def fieldImm3 (w : Word16) : BitVec 3 := field 3 w 9 7
/-- `IMM4` = word[10:7] (R31). -/
def fieldImm4 (w : Word16) : BitVec 4 := field 4 w 10 7
/-- `IMM8` = word[11:4] (R31). -/
def fieldImm8 (w : Word16) : BitVec 8 := field 8 w 11 4
/-- `OFF10` = word[9:0] (R31). -/
def fieldOff10 (w : Word16) : BitVec 10 := field 10 w 9 0
/-- `SHAMT` = word[11:7] (R31). -/
def fieldShamt (w : Word16) : BitVec 5 := field 5 w 11 7

/-- Class 0, selected by `SUB3`, where bit 10 belongs to `RM` when bit 12 is set (R34, R70 to R72, R75). -/
def decodeLoad (w : Word16) : Instr :=
  mux8 (fieldSub3 w) (.ldrImm (fieldRd w) (fieldRn w) (fieldImm3 w)) .unknownX1 .unknownX2 .unknownX2
    (.ldrReg (fieldRd w) (fieldRn w) (fieldRm w)) (.ldrReg (fieldRd w) (fieldRn w) (fieldRm w)) .unknownX3 .unknownX3

/-- Class 1, the same selector values as class 0 (R70, R73 to R75). -/
def decodeStore (w : Word16) : Instr :=
  mux8 (fieldSub3 w) (.strImm (fieldRd w) (fieldRn w) (fieldImm3 w)) .unknownX4 .unknownX5 .unknownX5
    (.strReg (fieldRd w) (fieldRn w) (fieldRm w)) (.strReg (fieldRd w) (fieldRn w) (fieldRm w)) .unknownX6 .unknownX6

/-- Class 2: the 8-way condition table (R81). -/
def decodeBranch (w : Word16) : Instr :=
  mux8 (fieldSub3 w) (.bzs (fieldOff10 w)) (.bzc (fieldOff10 w)) (.bcs (fieldOff10 w)) (.bcc (fieldOff10 w))
    (.bge (fieldOff10 w)) (.blt (fieldOff10 w)) (.b (fieldOff10 w)) (.bl (fieldOff10 w))

/-- Class 3 (R92). -/
def decodeMoveImmediate (w : Word16) : Instr :=
  mux2 (fieldSub1 w) (.movImm (fieldRd w) (fieldImm8 w)) (.movt (fieldRd w) (fieldImm8 w))

/-- Class 4 (R95). -/
def decodeArithRegister (w : Word16) : Instr :=
  mux4 (fieldSub2 w) (.addReg (fieldRd w) (fieldRn w) (fieldRm w)) (.subReg (fieldRd w) (fieldRn w) (fieldRm w))
    (.adc (fieldRd w) (fieldRn w) (fieldRm w)) (.sbc (fieldRd w) (fieldRn w) (fieldRm w))

/-- Class 5, sub-case 2: the third level, on `FN3` (R104, R112). -/
def decodeHi (w : Word16) : Instr :=
  mux8 (fieldFn3 w) (.movReg (fieldRd w) (fieldRm w)) (.mvn (fieldRd w) (fieldRm w)) (.movs (fieldRd w) (fieldRm w))
    .unknownX7 (.msrCspr (fieldRm w)) (.msrSpsr (fieldRm w)) (.mrsCspr (fieldRd w)) (.mrsSpsr (fieldRd w))

/-- Class 5 (R100). -/
def decodeArithImmCompareHi (w : Word16) : Instr :=
  mux4 (fieldSub2 w) (.addImm (fieldRd w) (fieldRn w) (fieldImm4 w)) (.subImm (fieldRd w) (fieldRn w) (fieldImm4 w))
    (decodeHi w) (.cmp (fieldRn w) (fieldRm w))

/-- Class 6 (R115, R119). -/
def decodeLogical (w : Word16) : Instr :=
  mux4 (fieldSub2 w) (.andReg (fieldRd w) (fieldRn w) (fieldRm w)) (.orr (fieldRd w) (fieldRn w) (fieldRm w))
    (.eor (fieldRd w) (fieldRn w) (fieldRm w)) .unknownX8

/-- Class 7 (R120). -/
def decodeShift (w : Word16) : Instr :=
  mux2 (fieldSub1 w) (.lsl (fieldRd w) (fieldRn w) (fieldShamt w)) (.lsr (fieldRd w) (fieldRn w) (fieldShamt w))

/-- The first level: an 8-way multiplexer on `word[15:13]` (R62, R63). Total on all 65,536 words (R61). -/
def decodeWord (w : Word16) : Instr :=
  mux8 (fieldCls w) (decodeLoad w) (decodeStore w) (decodeBranch w) (decodeMoveImmediate w) (decodeArithRegister w)
    (decodeArithImmCompareHi w) (decodeLogical w) (decodeShift w)

/-- The bit-field unit's operation select: 0 is GET, 1 is SET (R50). -/
def decodeBfOp (op : BitVec 1) : Instr := mux2 op .bfGet .bfSet

/-- What selects an operation: a 16-bit word at the dispatch engine, or the one bit `bf_op` at the bit-field unit. -/
inductive Code where
  | word (w : Word16)
  | bfOp (op : BitVec 1)
  deriving DecidableEq, Repr

/-- The operation a code selects. -/
def decode : Code → Instr
  | .word w => decodeWord w
  | .bfOp op => decodeBfOp op

/-- Two payload bytes as one word: low byte first (20_memory.md R22). -/
def assembleWord (lo hi : Byte) : Word16 := hi ++ lo

/-- Why bytes give no word: the dispatch engine is never presented a word made of one real byte and one missing byte
(20_memory.md R24). -/
inductive DecodeReject where
  | noBytes
  | halfWord
  deriving DecidableEq, Repr

/-- The first instruction of a byte sequence, low byte first, with the bytes after it; total, rejecting by name. -/
def decodeBytes : List Byte → Except DecodeReject (Instr × List Byte)
  | [] => .error .noBytes
  | [_] => .error .halfWord
  | lo :: hi :: rest => .ok (decodeWord (assembleWord lo hi), rest)

/-- The decoder as spec/opcode_table.json numbers its rows' bits: a 16-bit row is a word stored low byte first (R22); the
rows GET and SET have one bit, `bf_op`, given in one byte, and no other bit of that byte is on a port (R50). -/
def decodeTableWord (nbits w : Nat) : Option Instr :=
  if nbits = 16 then
    match decodeBytes [BitVec.ofNat 8 w, BitVec.ofNat 8 (w / 256)] with
    | .ok (i, _) => some i
    | .error _ => none
  else if nbits = 8 then some (decode (.bfOp (BitVec.ofNat 1 w)))
  else none

/-! ### The opcode map and the encoder -/

/-- A row of the opcode map: a word belongs to it when the word under `mask` is `bits` (30_encoding.md section 6). -/
structure Pattern where
  bits : Word16
  mask : Word16
  deriving DecidableEq, Repr

/-- A word belongs to a row. -/
def Pattern.covers (p : Pattern) (w : Word16) : Bool := decide (w &&& p.mask = p.bits)

/-- The row of each word instruction (30_encoding.md section 6 and R38); the two bit-field operations have none. -/
def Instr.pattern : Instr → Option Pattern
  | .ldrImm _ _ _ => some ⟨0x0000#16, 0xFC00#16⟩
  | .ldrReg _ _ _ => some ⟨0x1000#16, 0xF800#16⟩
  | .strImm _ _ _ => some ⟨0x2000#16, 0xFC00#16⟩
  | .strReg _ _ _ => some ⟨0x3000#16, 0xF800#16⟩
  | .bzs _ => some ⟨0x4000#16, 0xFC00#16⟩
  | .bzc _ => some ⟨0x4400#16, 0xFC00#16⟩
  | .bcs _ => some ⟨0x4800#16, 0xFC00#16⟩
  | .bcc _ => some ⟨0x4C00#16, 0xFC00#16⟩
  | .bge _ => some ⟨0x5000#16, 0xFC00#16⟩
  | .blt _ => some ⟨0x5400#16, 0xFC00#16⟩
  | .b _ => some ⟨0x5800#16, 0xFC00#16⟩
  | .bl _ => some ⟨0x5C00#16, 0xFC00#16⟩
  | .movImm _ _ => some ⟨0x6000#16, 0xF000#16⟩
  | .movt _ _ => some ⟨0x7000#16, 0xF000#16⟩
  | .addReg _ _ _ => some ⟨0x8000#16, 0xF800#16⟩
  | .subReg _ _ _ => some ⟨0x8800#16, 0xF800#16⟩
  | .adc _ _ _ => some ⟨0x9000#16, 0xF800#16⟩
  | .sbc _ _ _ => some ⟨0x9800#16, 0xF800#16⟩
  | .addImm _ _ _ => some ⟨0xA000#16, 0xF800#16⟩
  | .subImm _ _ _ => some ⟨0xA800#16, 0xF800#16⟩
  | .movReg _ _ => some ⟨0xB000#16, 0xF870#16⟩
  | .mvn _ _ => some ⟨0xB010#16, 0xF870#16⟩
  | .movs _ _ => some ⟨0xB020#16, 0xF870#16⟩
  | .msrCspr _ => some ⟨0xB040#16, 0xF870#16⟩
  | .msrSpsr _ => some ⟨0xB050#16, 0xF870#16⟩
  | .mrsCspr _ => some ⟨0xB060#16, 0xF870#16⟩
  | .mrsSpsr _ => some ⟨0xB070#16, 0xF870#16⟩
  | .cmp _ _ => some ⟨0xB800#16, 0xF800#16⟩
  | .andReg _ _ _ => some ⟨0xC000#16, 0xF800#16⟩
  | .orr _ _ _ => some ⟨0xC800#16, 0xF800#16⟩
  | .eor _ _ _ => some ⟨0xD000#16, 0xF800#16⟩
  | .lsl _ _ _ => some ⟨0xE000#16, 0xF000#16⟩
  | .lsr _ _ _ => some ⟨0xF000#16, 0xF000#16⟩
  | .unknownX1 => some ⟨0x0400#16, 0xFC00#16⟩
  | .unknownX2 => some ⟨0x0800#16, 0xF800#16⟩
  | .unknownX3 => some ⟨0x1800#16, 0xF800#16⟩
  | .unknownX4 => some ⟨0x2400#16, 0xFC00#16⟩
  | .unknownX5 => some ⟨0x2800#16, 0xF800#16⟩
  | .unknownX6 => some ⟨0x3800#16, 0xF800#16⟩
  | .unknownX7 => some ⟨0xB030#16, 0xF870#16⟩
  | .unknownX8 => some ⟨0xD800#16, 0xF800#16⟩
  | .bfGet => none
  | .bfSet => none

/-- The eight unknown patterns X1 to X8 (30_encoding.md R38). -/
def unknownPatterns : List Pattern :=
  [⟨0x0400#16, 0xFC00#16⟩, ⟨0x0800#16, 0xF800#16⟩, ⟨0x1800#16, 0xF800#16⟩, ⟨0x2400#16, 0xFC00#16⟩,
   ⟨0x2800#16, 0xF800#16⟩, ⟨0x3800#16, 0xF800#16⟩, ⟨0xB030#16, 0xF870#16⟩, ⟨0xD800#16, 0xF800#16⟩]

/-- The 33 decode rows of 30_encoding.md section 6, in its order. -/
def knownPatterns : List Pattern :=
  [⟨0x0000#16, 0xFC00#16⟩, ⟨0x1000#16, 0xF800#16⟩, ⟨0x2000#16, 0xFC00#16⟩, ⟨0x3000#16, 0xF800#16⟩]
  ++ [⟨0x4000#16, 0xFC00#16⟩, ⟨0x4400#16, 0xFC00#16⟩, ⟨0x4800#16, 0xFC00#16⟩, ⟨0x4C00#16, 0xFC00#16⟩]
  ++ [⟨0x5000#16, 0xFC00#16⟩, ⟨0x5400#16, 0xFC00#16⟩, ⟨0x5800#16, 0xFC00#16⟩, ⟨0x5C00#16, 0xFC00#16⟩]
  ++ [⟨0x6000#16, 0xF000#16⟩, ⟨0x7000#16, 0xF000#16⟩]
  ++ [⟨0x8000#16, 0xF800#16⟩, ⟨0x8800#16, 0xF800#16⟩, ⟨0x9000#16, 0xF800#16⟩, ⟨0x9800#16, 0xF800#16⟩]
  ++ [⟨0xA000#16, 0xF800#16⟩, ⟨0xA800#16, 0xF800#16⟩]
  ++ [⟨0xB000#16, 0xF870#16⟩, ⟨0xB010#16, 0xF870#16⟩, ⟨0xB020#16, 0xF870#16⟩]
  ++ [⟨0xB040#16, 0xF870#16⟩, ⟨0xB050#16, 0xF870#16⟩, ⟨0xB060#16, 0xF870#16⟩, ⟨0xB070#16, 0xF870#16⟩]
  ++ [⟨0xB800#16, 0xF800#16⟩]
  ++ [⟨0xC000#16, 0xF800#16⟩, ⟨0xC800#16, 0xF800#16⟩, ⟨0xD000#16, 0xF800#16⟩]
  ++ [⟨0xE000#16, 0xF000#16⟩, ⟨0xF000#16, 0xF000#16⟩]

/-- All 41 rows that words belong to (R42). -/
def opcodeRows : List Pattern := knownPatterns ++ unknownPatterns

/-- A field's value at its place in the word: its lowest bit at bit `lo`. -/
def place {n : Nat} (v : BitVec n) (lo : Nat) : Word16 := v.setWidth 16 <<< lo

/-- The word of a row with its operands `RD`, `RN` and the field that starts at bit 7 (R32). -/
def encode3 {n : Nat} (bits : Word16) (rd rn : RegIdx) (x : BitVec n) : Word16 :=
  bits ||| place x 7 ||| place rn 4 ||| place rd 0

/-- The code of a well-formed instruction (30_encoding.md R32 and section 6). Bits the decoder ignores (R39) are written
as 0. The document has no encoding direction (00_scope.md R4 item 3): this is the rows read the other way. -/
def encode : Instr → Code
  | .ldrImm rd rn imm3 => .word (encode3 0x0000#16 rd rn imm3)
  | .ldrReg rd rn rm => .word (encode3 0x1000#16 rd rn rm)
  | .strImm rd rn imm3 => .word (encode3 0x2000#16 rd rn imm3)
  | .strReg rd rn rm => .word (encode3 0x3000#16 rd rn rm)
  | .bzs off10 => .word (0x4000#16 ||| place off10 0)
  | .bzc off10 => .word (0x4400#16 ||| place off10 0)
  | .bcs off10 => .word (0x4800#16 ||| place off10 0)
  | .bcc off10 => .word (0x4C00#16 ||| place off10 0)
  | .bge off10 => .word (0x5000#16 ||| place off10 0)
  | .blt off10 => .word (0x5400#16 ||| place off10 0)
  | .b off10 => .word (0x5800#16 ||| place off10 0)
  | .bl off10 => .word (0x5C00#16 ||| place off10 0)
  | .movImm rd imm8 => .word (0x6000#16 ||| place imm8 4 ||| place rd 0)
  | .movt rd imm8 => .word (0x7000#16 ||| place imm8 4 ||| place rd 0)
  | .addReg rd rn rm => .word (encode3 0x8000#16 rd rn rm)
  | .subReg rd rn rm => .word (encode3 0x8800#16 rd rn rm)
  | .adc rd rn rm => .word (encode3 0x9000#16 rd rn rm)
  | .sbc rd rn rm => .word (encode3 0x9800#16 rd rn rm)
  | .addImm rd rn imm4 => .word (encode3 0xA000#16 rd rn imm4)
  | .subImm rd rn imm4 => .word (encode3 0xA800#16 rd rn imm4)
  | .movReg rd rm => .word (0xB000#16 ||| place rm 7 ||| place rd 0)
  | .mvn rd rm => .word (0xB010#16 ||| place rm 7 ||| place rd 0)
  | .movs rd rm => .word (0xB020#16 ||| place rm 7 ||| place rd 0)
  | .msrCspr rm => .word (0xB040#16 ||| place rm 7)
  | .msrSpsr rm => .word (0xB050#16 ||| place rm 7)
  | .mrsCspr rd => .word (0xB060#16 ||| place rd 0)
  | .mrsSpsr rd => .word (0xB070#16 ||| place rd 0)
  | .cmp rn rm => .word (0xB800#16 ||| place rm 7 ||| place rn 4)
  | .andReg rd rn rm => .word (encode3 0xC000#16 rd rn rm)
  | .orr rd rn rm => .word (encode3 0xC800#16 rd rn rm)
  | .eor rd rn rm => .word (encode3 0xD000#16 rd rn rm)
  | .lsl rd rn shamt => .word (encode3 0xE000#16 rd rn shamt)
  | .lsr rd rn shamt => .word (encode3 0xF000#16 rd rn shamt)
  | .unknownX1 => .word 0x0400#16
  | .unknownX2 => .word 0x0800#16
  | .unknownX3 => .word 0x1800#16
  | .unknownX4 => .word 0x2400#16
  | .unknownX5 => .word 0x2800#16
  | .unknownX6 => .word 0x3800#16
  | .unknownX7 => .word 0xB030#16
  | .unknownX8 => .word 0xD800#16
  | .bfGet => .bfOp 0#1
  | .bfSet => .bfOp 1#1

/-- The bits of the word that an instruction's row does not ignore (R39): its fixed bits and its fields. The bit-field
operations are selected by no word. -/
def Instr.careMask : Instr → Word16
  | .ldrImm _ _ _ => 0xFFFF#16
  | .ldrReg _ _ _ => 0xFFFF#16
  | .strImm _ _ _ => 0xFFFF#16
  | .strReg _ _ _ => 0xFFFF#16
  | .bzs _ => 0xFFFF#16
  | .bzc _ => 0xFFFF#16
  | .bcs _ => 0xFFFF#16
  | .bcc _ => 0xFFFF#16
  | .bge _ => 0xFFFF#16
  | .blt _ => 0xFFFF#16
  | .b _ => 0xFFFF#16
  | .bl _ => 0xFFFF#16
  | .movImm _ _ => 0xFFFF#16
  | .movt _ _ => 0xFFFF#16
  | .addReg _ _ _ => 0xFFFF#16
  | .subReg _ _ _ => 0xFFFF#16
  | .adc _ _ _ => 0xFFFF#16
  | .sbc _ _ _ => 0xFFFF#16
  | .addImm _ _ _ => 0xFFFF#16
  | .subImm _ _ _ => 0xFFFF#16
  | .movReg _ _ => 0xFFFF#16
  | .mvn _ _ => 0xFFFF#16
  | .movs _ _ => 0xFFFF#16
  | .msrCspr _ => 0xFFF0#16
  | .msrSpsr _ => 0xFFF0#16
  | .mrsCspr _ => 0xF87F#16
  | .mrsSpsr _ => 0xF87F#16
  | .cmp _ _ => 0xFFF0#16
  | .andReg _ _ _ => 0xFFFF#16
  | .orr _ _ _ => 0xFFFF#16
  | .eor _ _ _ => 0xFFFF#16
  | .lsl _ _ _ => 0xFFFF#16
  | .lsr _ _ _ => 0xFFFF#16
  | .unknownX1 => 0xFC00#16
  | .unknownX2 => 0xF800#16
  | .unknownX3 => 0xF800#16
  | .unknownX4 => 0xFC00#16
  | .unknownX5 => 0xF800#16
  | .unknownX6 => 0xF800#16
  | .unknownX7 => 0xF870#16
  | .unknownX8 => 0xF800#16
  | .bfGet => 0x0000#16
  | .bfSet => 0x0000#16

end Sys2Proof
end

