-- ==== Sys2Proof/Machine/State.lean ====
section
/-! DEFINITION. State, the reasons a step can stop, and reset. The blocks hold no state (10_state.md R10): what `State` holds is
the present value of every port of both blocks (40_bitfield.md R50, 41_dispatch.md R60), the environment that 00_scope.md R3
item 3 puts in scope (the records presented and the listing, R21 to R24, R28, R136), and which evaluation comes next. -/

namespace Sys2Proof.Machine

/-- One operand output: `kind` and `val` (R60, R68). -/
structure Operand where
  kind : Kind
  val : Word16
  deriving DecidableEq, Repr

/-- The input ports of the dispatch engine (R60). -/
structure OdeIn where
  word : Word16
  nextPc : Word16
  deriving DecidableEq, Repr

/-- The output ports of the dispatch engine (R60). The enumerated ones hold the name; R67 and R68 give each name's code
(`Mnemonic.code`, `Form.code`, `Kind.code`). -/
structure OdeOut where
  cls : BitVec 3
  mnem : Mnemonic
  form : Form
  nops : BitVec 2
  op0 : Operand
  op1 : Operand
  op2 : Operand
  unknown : Bool
  deriving DecidableEq, Repr

/-- The input ports of the bit-field unit (R50). -/
structure BfuIn where
  op : BitVec 1
  value : Word32
  msp : Pos
  lsp : Pos
  newValue : Word32
  deriving DecidableEq, Repr

/-- The output ports of the bit-field unit (R50). -/
structure BfuOut where
  result : Word32
  rangeErr : Bool
  deriving DecidableEq, Repr

/-- A record as the environment holds it (R21). The parser that checks `checksum` is out of scope (R4 item 1). -/
structure HexRecord where
  byteCount : Byte
  address : Word16
  recordType : Byte
  payload : List Byte
  checksum : Byte
  deriving DecidableEq, Repr

/-- One line of the listing (R136). -/
structure DisassemblyLine where
  address : Word16
  rawLo : Byte
  rawHi : Byte
  mnemonic : Text
  operands : Text
  deriving DecidableEq, Repr

/-- Which evaluation the next step is. The spec has no scheduler, since evaluations are independent (R27, R158): this field is
the model's own. `ode` and `bfu` evaluate one block on its present inputs; `record` lets the environment present the next
word of the pending records first (R21 to R24). -/
inductive Select where
  | ode | bfu | record
  deriving DecidableEq, Repr

/-- The whole state. -/
structure State where
  select : Select
  odeIn : OdeIn
  odeOut : OdeOut
  bfuIn : BfuIn
  bfuOut : BfuOut
  records : List HexRecord
  wordIndex : Nat
  listing : List DisassemblyLine
  streamComplete : Bool
  deriving DecidableEq, Repr

/-- Why the machine stops with a fault. No evaluation of either block faults (R61, R140, R143). -/
inductive Fault where
  /-- Raised by the environment's presenter when the pending record breaks the data-model invariant
  "payload.length == byte_count" (R21): no such record can be built, so nothing says what happens. Safe. -/
  | recordLengthMismatch
  deriving DecidableEq, Repr

/-- Why a step is refused. No instruction is: each of these is about a record the environment may not present. -/
inductive Refusal where
  /-- Raised by an arm of `exec` whose instruction has no meaning yet; no arm answers it. Safe. -/
  | notModelled (mnemonic : String)
  /-- Raised by the presenter for a data record with an odd `byte_count` (R24, U10): no word of it is presented. Safe. -/
  | oddByteCount
  /-- Raised by the presenter for record types 2 to 5, "known but unhandled" (R21, U9). Safe. -/
  | unhandledRecordType
  /-- Raised by the presenter for a record type outside 0 to 5, which is invalid (R21). Safe. -/
  | invalidRecordType
  deriving DecidableEq, Repr

/-- There is no reset and no register (R17, R150). The input ports are given 0 (the model's choice, notes/assumptions/3.md); the
output ports are then what R17 says they are from the first moment, the function of those inputs: word 0 decodes to
`ldr r0, [r0, #0]` (R71) and GET of bit 0 of 0 is 0 (R52). No record is pending and no line is printed. -/
def State.reset : State where
  select := .ode
  odeIn := ⟨0#16, 0#16⟩
  odeOut := ⟨0#3, .ldr, .memi, 3#2, ⟨.reg, 0#16⟩, ⟨.reg, 0#16⟩, ⟨.imm, 0#16⟩, false⟩
  bfuIn := ⟨0#1, 0#32, 0#6, 0#6, 0#32⟩
  bfuOut := ⟨0#32, false⟩
  records := []
  wordIndex := 0
  listing := []
  streamComplete := false

end Sys2Proof.Machine
end

