-- ==== Sys2Proof/Machine/Operands.lean ====
section
/-! DEFINITION. The operand forms of 41_dispatch.md R68, the numeric codes of the enumerated outputs (R67, R68), and the branch
target (43_branch.md R82). -/

namespace Sys2Proof

/-- The code of `out.mnem` (R67). -/
def Mnemonic.code : Mnemonic → BitVec 5
  | .unknown => 0#5
  | .ldr => 1#5
  | .str => 2#5
  | .bzs => 3#5
  | .bzc => 4#5
  | .bcs => 5#5
  | .bcc => 6#5
  | .bge => 7#5
  | .blt => 8#5
  | .b => 9#5
  | .bl => 10#5
  | .mov => 11#5
  | .movt => 12#5
  | .add => 13#5
  | .sub => 14#5
  | .adc => 15#5
  | .sbc => 16#5
  | .cmp => 17#5
  | .mvn => 18#5
  | .movs => 19#5
  | .msr => 20#5
  | .mrs => 21#5
  | .and => 22#5
  | .orr => 23#5
  | .eor => 24#5
  | .lsl => 25#5
  | .lsr => 26#5

/-- The code of `out.form` (R68). -/
def Form.code : Form → BitVec 4
  | .none => 0#4
  | .memi => 1#4
  | .memr => 2#4
  | .br => 3#4
  | .movi => 4#4
  | .r3 => 5#4
  | .ri4 => 6#4
  | .cmp => 7#4
  | .hi2 => 8#4
  | .msr => 9#4
  | .mrs => 10#4
  | .sh => 11#4

/-- The code of an operand's kind (R68). -/
def Kind.code : Kind → BitVec 3
  | .none => 0#3
  | .reg => 1#3
  | .rega => 2#3
  | .imm => 3#3
  | .addr => 4#3
  | .psr => 5#3

/-- `out.nops` of a form (R68). -/
def Form.nops : Form → BitVec 2
  | .none => 0#2
  | .memi => 3#2
  | .memr => 3#2
  | .br => 1#2
  | .movi => 2#2
  | .r3 => 3#2
  | .ri4 => 3#2
  | .cmp => 2#2
  | .hi2 => 2#2
  | .msr => 2#2
  | .mrs => 2#2
  | .sh => 3#2

/-- The kind of `op0` in a form (R68). -/
def Form.kind0 : Form → Kind
  | .none => .none
  | .memi => .reg
  | .memr => .reg
  | .br => .addr
  | .movi => .reg
  | .r3 => .reg
  | .ri4 => .reg
  | .cmp => .reg
  | .hi2 => .rega
  | .msr => .psr
  | .mrs => .reg
  | .sh => .reg

/-- The kind of `op1` in a form (R68). -/
def Form.kind1 : Form → Kind
  | .none => .none
  | .memi => .reg
  | .memr => .reg
  | .br => .none
  | .movi => .imm
  | .r3 => .reg
  | .ri4 => .reg
  | .cmp => .reg
  | .hi2 => .rega
  | .msr => .reg
  | .mrs => .psr
  | .sh => .reg

/-- The kind of `op2` in a form (R68). -/
def Form.kind2 : Form → Kind
  | .none => .none
  | .memi => .imm
  | .memr => .reg
  | .br => .none
  | .movi => .none
  | .r3 => .reg
  | .ri4 => .imm
  | .cmp => .none
  | .hi2 => .none
  | .msr => .none
  | .mrs => .none
  | .sh => .imm

/-- The `val` of a PSR operand (R68): 0 for `cspr`, 1 for `spsr`. -/
def Psr.val : Psr → Word16
  | .cspr => 0#16
  | .spsr => 1#16

end Sys2Proof

namespace Sys2Proof.Machine

/-- An operand slot's `val`: the field zero-extended to 16 bits, unscaled (R35, R36, R65). -/
def fieldVal {n : Nat} (x : BitVec n) : Word16 := x.setWidth 16

/-- The branch target with `BRANCH_MASK` as an argument (U12). The sum modulo 2^16 masks to the same value as the sum over the
naturals (R82). -/
def branchTargetWith (m : Word16) (nextPc : Word16) (off10 : BitVec 10) : Word16 :=
  (nextPc + 2#16 * off10.setWidth 16) &&& m

/-- `target := (next_pc + 2 * OFF10) & 0x3FF` (R82), the offset read unsigned (D12). -/
def branchTarget (nextPc : Word16) (off10 : BitVec 10) : Word16 := branchTargetWith Config.branchMask nextPc off10

end Sys2Proof.Machine
end

