-- ==== Sys2Proof/Machine/Flags.lean ====
section
/-! DEFINITION. The hardware has no flag and reads none (10_state.md R14). Its two one-bit outputs that tell an abnormal outcome,
`out.unknown` and `bf_range_err`, are recomputed at every evaluation (R14, 60_exceptions.md section 1): they are computed here. -/

namespace Sys2Proof.Machine

/-- `out.unknown` (R64, R143): 1 exactly where no decode case gives a mnemonic. -/
def unknownFlag (m : Mnemonic) : Bool := decide (m = .unknown)

/-- `bf_range_err` (R51, R140): the position check fails. -/
def rangeErrFlag (r : Except RangeError Word32) : Bool :=
  match r with
  | .ok _ => false
  | .error .rangeError => true

end Sys2Proof.Machine
end

