-- ==== Sys2Proof/Machine/Ops.lean ====
section
/-! DEFINITION. The shared operations every meaning is a line over: what the dispatch engine outputs for a decode case (41_dispatch.md
R69 `emit`) or for an unmapped word (R64), and how each block drives its output ports. There is no exception entry and no
return from one (60_exceptions.md R146, R147): the two abnormal outcomes are output values, `unknownOutcome` (R143) and the error
case of `bfuOutOf` (R140). -/

namespace Sys2Proof.Machine

/-- The unknown outcome of a class (R64): a fixed tagged value, with the class still driven. -/
def unknownOutcome (cls : BitVec 3) : OdeOut where
  cls := cls
  mnem := .unknown
  form := .none
  nops := 0#2
  op0 := ⟨.none, 0#16⟩
  op1 := ⟨.none, 0#16⟩
  op2 := ⟨.none, 0#16⟩
  unknown := unknownFlag .unknown

/-- `emit(m, f, a, b, c)` of R69: the operand kinds and their number follow from the form (R68); a slot the form does not use is
given 0 by the caller (R65). -/
def emit (cls : BitVec 3) (m : Mnemonic) (f : Form) (a b c : Word16) : OdeOut where
  cls := cls
  mnem := m
  form := f
  nops := f.nops
  op0 := ⟨f.kind0, a⟩
  op1 := ⟨f.kind1, b⟩
  op2 := ⟨f.kind2, c⟩
  unknown := unknownFlag m

/-- The dispatch engine drives every one of its outputs (R65); nothing else changes. -/
def State.driveOde (s : State) (out : OdeOut) : State := { s with odeOut := out }

/-- The bit-field unit's outputs for a result of GET or SET (R50, R51): on RangeError `bf_result` is driven to 0 and means
nothing (D4). -/
def bfuOutOf (r : Except RangeError Word32) : BfuOut where
  result := match r with
    | .ok v => v
    | .error _ => 0#32
  rangeErr := rangeErrFlag r

/-- The bit-field unit drives its two outputs (R58); nothing else changes. -/
def State.driveBfu (s : State) (r : Except RangeError Word32) : State := { s with bfuOut := bfuOutOf r }

end Sys2Proof.Machine
end

