-- ==== Sys2Proof/Machine/ArithImmCompareHi.lean ====
section
/-! DEFINITION. Class 5 (46_arith_imm_compare_hi.md): add and sub with an immediate, compare, and the hi-register group of the third level
(R104). No privilege is checked (60_exceptions.md R148). -/

namespace Sys2Proof.Machine

/-- `add` immediate (R101). -/
def execAddImm (rd rn : RegIdx) (imm4 : BitVec 4) (s : State) : Host.Outcome State Fault Refusal :=
  .next (s.driveOde (emit 5#3 .add .ri4 (fieldVal rd) (fieldVal rn) (fieldVal imm4)))

/-- `sub` immediate (R102). -/
def execSubImm (rd rn : RegIdx) (imm4 : BitVec 4) (s : State) : Host.Outcome State Fault Refusal :=
  .next (s.driveOde (emit 5#3 .sub .ri4 (fieldVal rd) (fieldVal rn) (fieldVal imm4)))

/-- `mov` register, the hi-register move form (R105). -/
def execMovReg (rd rm : RegIdx) (s : State) : Host.Outcome State Fault Refusal :=
  .next (s.driveOde (emit 5#3 .mov .hi2 (fieldVal rd) (fieldVal rm) 0#16))

/-- `mvn` (R106). -/
def execMvn (rd rm : RegIdx) (s : State) : Host.Outcome State Fault Refusal :=
  .next (s.driveOde (emit 5#3 .mvn .hi2 (fieldVal rd) (fieldVal rm) 0#16))

/-- `movs` (R107): no return-from-exception meaning is attached to any operand pair. -/
def execMovs (rd rm : RegIdx) (s : State) : Host.Outcome State Fault Refusal :=
  .next (s.driveOde (emit 5#3 .movs .hi2 (fieldVal rd) (fieldVal rm) 0#16))

/-- `msr` to `cspr` (R108). -/
def execMsrCspr (rm : RegIdx) (s : State) : Host.Outcome State Fault Refusal :=
  .next (s.driveOde (emit 5#3 .msr .msr Psr.cspr.val (fieldVal rm) 0#16))

/-- `msr` to `spsr` (R109). -/
def execMsrSpsr (rm : RegIdx) (s : State) : Host.Outcome State Fault Refusal :=
  .next (s.driveOde (emit 5#3 .msr .msr Psr.spsr.val (fieldVal rm) 0#16))

/-- `mrs` from `cspr` (R110). -/
def execMrsCspr (rd : RegIdx) (s : State) : Host.Outcome State Fault Refusal :=
  .next (s.driveOde (emit 5#3 .mrs .mrs (fieldVal rd) Psr.cspr.val 0#16))

/-- `mrs` from `spsr` (R111). -/
def execMrsSpsr (rd : RegIdx) (s : State) : Host.Outcome State Fault Refusal :=
  .next (s.driveOde (emit 5#3 .mrs .mrs (fieldVal rd) Psr.spsr.val 0#16))

/-- `cmp` (R103). -/
def execCmp (rn rm : RegIdx) (s : State) : Host.Outcome State Fault Refusal :=
  .next (s.driveOde (emit 5#3 .cmp .cmp (fieldVal rn) (fieldVal rm) 0#16))

end Sys2Proof.Machine
end

