-- ==== Sys2Proof/Machine/ArithRegister.lean ====
section
/-! DEFINITION. Class 4 (45_arith_register.md): three registers named, no arithmetic done. -/

namespace Sys2Proof.Machine

/-- `add` register (R96). -/
def execAddReg (rd rn rm : RegIdx) (s : State) : Host.Outcome State Fault Refusal :=
  .next (s.driveOde (emit 4#3 .add .r3 (fieldVal rd) (fieldVal rn) (fieldVal rm)))

/-- `sub` register (R97). -/
def execSubReg (rd rn rm : RegIdx) (s : State) : Host.Outcome State Fault Refusal :=
  .next (s.driveOde (emit 4#3 .sub .r3 (fieldVal rd) (fieldVal rn) (fieldVal rm)))

/-- `adc` (R98). -/
def execAdc (rd rn rm : RegIdx) (s : State) : Host.Outcome State Fault Refusal :=
  .next (s.driveOde (emit 4#3 .adc .r3 (fieldVal rd) (fieldVal rn) (fieldVal rm)))

/-- `sbc` (R99). -/
def execSbc (rd rn rm : RegIdx) (s : State) : Host.Outcome State Fault Refusal :=
  .next (s.driveOde (emit 4#3 .sbc .r3 (fieldVal rd) (fieldVal rn) (fieldVal rm)))

end Sys2Proof.Machine
end

