-- ==== Sys2Proof/Machine/BitFieldUnit.lean ====
section
/-! DEFINITION. The two operations of the bit-field unit on its present input ports (40_bitfield.md R52, R54). -/

namespace Sys2Proof.Machine

/-- GET (R52): `bf_new` is ignored. -/
def execBfGet (s : State) : Host.Outcome State Fault Refusal :=
  .next (s.driveBfu (getBits s.bfuIn.value s.bfuIn.msp.toNat s.bfuIn.lsp.toNat))

/-- SET (R54). -/
def execBfSet (s : State) : Host.Outcome State Fault Refusal :=
  .next (s.driveBfu (setBits s.bfuIn.value s.bfuIn.msp.toNat s.bfuIn.lsp.toNat s.bfuIn.newValue))

end Sys2Proof.Machine
end

