-- ==== Sys2Proof/Machine/Branch.lean ====
section
/-! DEFINITION. Class 2 (43_branch.md): the one class whose operand is computed, from `next_pc` (R82). No condition is read and nothing
branches (R14, R80). -/

namespace Sys2Proof.Machine

/-- `bzs` (R84). -/
def execBzs (off10 : BitVec 10) (s : State) : Host.Outcome State Fault Refusal :=
  .next (s.driveOde (emit 2#3 .bzs .br (branchTarget s.odeIn.nextPc off10) 0#16 0#16))

/-- `bzc` (R85). -/
def execBzc (off10 : BitVec 10) (s : State) : Host.Outcome State Fault Refusal :=
  .next (s.driveOde (emit 2#3 .bzc .br (branchTarget s.odeIn.nextPc off10) 0#16 0#16))

/-- `bcs` (R86). -/
def execBcs (off10 : BitVec 10) (s : State) : Host.Outcome State Fault Refusal :=
  .next (s.driveOde (emit 2#3 .bcs .br (branchTarget s.odeIn.nextPc off10) 0#16 0#16))

/-- `bcc` (R87). -/
def execBcc (off10 : BitVec 10) (s : State) : Host.Outcome State Fault Refusal :=
  .next (s.driveOde (emit 2#3 .bcc .br (branchTarget s.odeIn.nextPc off10) 0#16 0#16))

/-- `bge` (R88). -/
def execBge (off10 : BitVec 10) (s : State) : Host.Outcome State Fault Refusal :=
  .next (s.driveOde (emit 2#3 .bge .br (branchTarget s.odeIn.nextPc off10) 0#16 0#16))

/-- `blt` (R89). -/
def execBlt (off10 : BitVec 10) (s : State) : Host.Outcome State Fault Refusal :=
  .next (s.driveOde (emit 2#3 .blt .br (branchTarget s.odeIn.nextPc off10) 0#16 0#16))

/-- `b` (R90). -/
def execB (off10 : BitVec 10) (s : State) : Host.Outcome State Fault Refusal :=
  .next (s.driveOde (emit 2#3 .b .br (branchTarget s.odeIn.nextPc off10) 0#16 0#16))

/-- `bl` (R91). -/
def execBl (off10 : BitVec 10) (s : State) : Host.Outcome State Fault Refusal :=
  .next (s.driveOde (emit 2#3 .bl .br (branchTarget s.odeIn.nextPc off10) 0#16 0#16))

end Sys2Proof.Machine
end

