-- ==== Sys2Proof/Machine/LoadStore.lean ====
section
/-! DEFINITION. Classes 0 and 1 (42_load_store.md): what the dispatch engine outputs for a load or a store. It performs neither
(20_memory.md R20). -/

namespace Sys2Proof.Machine

/-- `ldr` immediate-offset (R71). -/
def execLdrImm (rd rn : RegIdx) (imm3 : BitVec 3) (s : State) : Host.Outcome State Fault Refusal :=
  .next (s.driveOde (emit 0#3 .ldr .memi (fieldVal rd) (fieldVal rn) (fieldVal imm3)))

/-- `ldr` register-indexed (R72). -/
def execLdrReg (rd rn rm : RegIdx) (s : State) : Host.Outcome State Fault Refusal :=
  .next (s.driveOde (emit 0#3 .ldr .memr (fieldVal rd) (fieldVal rn) (fieldVal rm)))

/-- `str` immediate-offset (R73). -/
def execStrImm (rd rn : RegIdx) (imm3 : BitVec 3) (s : State) : Host.Outcome State Fault Refusal :=
  .next (s.driveOde (emit 1#3 .str .memi (fieldVal rd) (fieldVal rn) (fieldVal imm3)))

/-- `str` register-indexed (R74). -/
def execStrReg (rd rn rm : RegIdx) (s : State) : Host.Outcome State Fault Refusal :=
  .next (s.driveOde (emit 1#3 .str .memr (fieldVal rd) (fieldVal rn) (fieldVal rm)))

end Sys2Proof.Machine
end

