-- ==== Sys2Proof/Machine/LogicalShift.lean ====
section
/-! DEFINITION. Class 6 and class 7 (47_logical_shift.md), with the tables of the spec's machine (R115, R120). Nothing is shifted: the amount
is emitted as it is (R121). -/

namespace Sys2Proof.Machine

/-- `and` (R116). -/
def execAndReg (rd rn rm : RegIdx) (s : State) : Host.Outcome State Fault Refusal :=
  .next (s.driveOde (emit 6#3 .and .r3 (fieldVal rd) (fieldVal rn) (fieldVal rm)))

/-- `orr` (R117). -/
def execOrr (rd rn rm : RegIdx) (s : State) : Host.Outcome State Fault Refusal :=
  .next (s.driveOde (emit 6#3 .orr .r3 (fieldVal rd) (fieldVal rn) (fieldVal rm)))

/-- `eor` (R118). -/
def execEor (rd rn rm : RegIdx) (s : State) : Host.Outcome State Fault Refusal :=
  .next (s.driveOde (emit 6#3 .eor .r3 (fieldVal rd) (fieldVal rn) (fieldVal rm)))

/-- `lsl` (R121). -/
def execLsl (rd rn : RegIdx) (shamt : BitVec 5) (s : State) : Host.Outcome State Fault Refusal :=
  .next (s.driveOde (emit 7#3 .lsl .sh (fieldVal rd) (fieldVal rn) (fieldVal shamt)))

/-- `lsr` (R122). -/
def execLsr (rd rn : RegIdx) (shamt : BitVec 5) (s : State) : Host.Outcome State Fault Refusal :=
  .next (s.driveOde (emit 7#3 .lsr .sh (fieldVal rd) (fieldVal rn) (fieldVal shamt)))

end Sys2Proof.Machine
end

