-- ==== Sys2Proof/Machine/MoveImmediate.lean ====
section
/-! DEFINITION. Class 3 (44_move_immediate.md). The immediate is emitted as the raw field, `movt`'s too (R35, R94). -/

namespace Sys2Proof.Machine

/-- `mov` immediate (R93). -/
def execMovImm (rd : RegIdx) (imm8 : BitVec 8) (s : State) : Host.Outcome State Fault Refusal :=
  .next (s.driveOde (emit 3#3 .mov .movi (fieldVal rd) (fieldVal imm8) 0#16))

/-- `movt` (R94). -/
def execMovt (rd : RegIdx) (imm8 : BitVec 8) (s : State) : Host.Outcome State Fault Refusal :=
  .next (s.driveOde (emit 3#3 .movt .movi (fieldVal rd) (fieldVal imm8) 0#16))

end Sys2Proof.Machine
end

