-- ==== Sys2Proof/Machine/Unknown.lean ====
section
/-! DEFINITION. The eight unknown patterns X1 to X8 (30_encoding.md R38): each gives the tagged unknown outcome with its class, a value and
not a fault (R64, R143). -/

namespace Sys2Proof.Machine

/-- Pattern X1, class 0 (R75). -/
def execUnknownX1 (s : State) : Host.Outcome State Fault Refusal :=
  .next (s.driveOde (unknownOutcome 0#3))

/-- Pattern X2, class 0 (R75). -/
def execUnknownX2 (s : State) : Host.Outcome State Fault Refusal :=
  .next (s.driveOde (unknownOutcome 0#3))

/-- Pattern X3, class 0 (R75). -/
def execUnknownX3 (s : State) : Host.Outcome State Fault Refusal :=
  .next (s.driveOde (unknownOutcome 0#3))

/-- Pattern X4, class 1 (R75). -/
def execUnknownX4 (s : State) : Host.Outcome State Fault Refusal :=
  .next (s.driveOde (unknownOutcome 1#3))

/-- Pattern X5, class 1 (R75). -/
def execUnknownX5 (s : State) : Host.Outcome State Fault Refusal :=
  .next (s.driveOde (unknownOutcome 1#3))

/-- Pattern X6, class 1 (R75). -/
def execUnknownX6 (s : State) : Host.Outcome State Fault Refusal :=
  .next (s.driveOde (unknownOutcome 1#3))

/-- Pattern X7, class 5 (R112). -/
def execUnknownX7 (s : State) : Host.Outcome State Fault Refusal :=
  .next (s.driveOde (unknownOutcome 5#3))

/-- Pattern X8, class 6 (R119). -/
def execUnknownX8 (s : State) : Host.Outcome State Fault Refusal :=
  .next (s.driveOde (unknownOutcome 6#3))

end Sys2Proof.Machine
end

