-- ==== Sys2Proof/Machine/Dispatch.lean ====
section
/-! DEFINITION. One arm per constructor of Instr, each a direct call of the instruction's own meaning. -/

namespace Sys2Proof.Machine

/-- The meaning of an instruction. -/
def exec (i : Instr) (s : State) : Host.Outcome State Fault Refusal :=
  match i with
  | .ldrImm rd rn imm3 => Sys2Proof.Machine.execLdrImm rd rn imm3 s
  | .ldrReg rd rn rm => Sys2Proof.Machine.execLdrReg rd rn rm s
  | .strImm rd rn imm3 => Sys2Proof.Machine.execStrImm rd rn imm3 s
  | .strReg rd rn rm => Sys2Proof.Machine.execStrReg rd rn rm s
  | .bzs off10 => Sys2Proof.Machine.execBzs off10 s
  | .bzc off10 => Sys2Proof.Machine.execBzc off10 s
  | .bcs off10 => Sys2Proof.Machine.execBcs off10 s
  | .bcc off10 => Sys2Proof.Machine.execBcc off10 s
  | .bge off10 => Sys2Proof.Machine.execBge off10 s
  | .blt off10 => Sys2Proof.Machine.execBlt off10 s
  | .b off10 => Sys2Proof.Machine.execB off10 s
  | .bl off10 => Sys2Proof.Machine.execBl off10 s
  | .movImm rd imm8 => Sys2Proof.Machine.execMovImm rd imm8 s
  | .movt rd imm8 => Sys2Proof.Machine.execMovt rd imm8 s
  | .addReg rd rn rm => Sys2Proof.Machine.execAddReg rd rn rm s
  | .subReg rd rn rm => Sys2Proof.Machine.execSubReg rd rn rm s
  | .adc rd rn rm => Sys2Proof.Machine.execAdc rd rn rm s
  | .sbc rd rn rm => Sys2Proof.Machine.execSbc rd rn rm s
  | .addImm rd rn imm4 => Sys2Proof.Machine.execAddImm rd rn imm4 s
  | .subImm rd rn imm4 => Sys2Proof.Machine.execSubImm rd rn imm4 s
  | .movReg rd rm => Sys2Proof.Machine.execMovReg rd rm s
  | .mvn rd rm => Sys2Proof.Machine.execMvn rd rm s
  | .movs rd rm => Sys2Proof.Machine.execMovs rd rm s
  | .msrCspr rm => Sys2Proof.Machine.execMsrCspr rm s
  | .msrSpsr rm => Sys2Proof.Machine.execMsrSpsr rm s
  | .mrsCspr rd => Sys2Proof.Machine.execMrsCspr rd s
  | .mrsSpsr rd => Sys2Proof.Machine.execMrsSpsr rd s
  | .cmp rn rm => Sys2Proof.Machine.execCmp rn rm s
  | .andReg rd rn rm => Sys2Proof.Machine.execAndReg rd rn rm s
  | .orr rd rn rm => Sys2Proof.Machine.execOrr rd rn rm s
  | .eor rd rn rm => Sys2Proof.Machine.execEor rd rn rm s
  | .lsl rd rn shamt => Sys2Proof.Machine.execLsl rd rn shamt s
  | .lsr rd rn shamt => Sys2Proof.Machine.execLsr rd rn shamt s
  | .unknownX1 => Sys2Proof.Machine.execUnknownX1 s
  | .unknownX2 => Sys2Proof.Machine.execUnknownX2 s
  | .unknownX3 => Sys2Proof.Machine.execUnknownX3 s
  | .unknownX4 => Sys2Proof.Machine.execUnknownX4 s
  | .unknownX5 => Sys2Proof.Machine.execUnknownX5 s
  | .unknownX6 => Sys2Proof.Machine.execUnknownX6 s
  | .unknownX7 => Sys2Proof.Machine.execUnknownX7 s
  | .unknownX8 => Sys2Proof.Machine.execUnknownX8 s
  | .bfGet => Sys2Proof.Machine.execBfGet s
  | .bfSet => Sys2Proof.Machine.execBfSet s

end Sys2Proof.Machine
end

