-- ==== Sys2Proof/Machine/Render.lean ====
section
/-! DEFINITION. `render`, the pure function from the dispatch engine's outputs to text (49_rendering.md R125 to R134), and the listing
line (R136). -/

namespace Sys2Proof.Machine

/-- A hexadecimal digit, upper case (R130, D24). -/
def hexDigit (d : BitVec 4) : Char :=
  if d.toNat < 10 then Char.ofNat (48 + d.toNat) else Char.ofNat (55 + d.toNat)

/-- A byte as two hexadecimal digits (R136). -/
def hex2 (v : Byte) : Text := [hexDigit (v.extractLsb' 4 4), hexDigit (v.extractLsb' 0 4)]

/-- A 16-bit value as exactly four hexadecimal digits (R130, R136). -/
def hex4 (v : Word16) : Text := hex2 (v.extractLsb' 8 8) ++ hex2 (v.extractLsb' 0 8)

/-- An unsigned decimal number without leading zero (R127, R129). -/
def decimal (v : Word16) : Text := Nat.toDigits 10 v.toNat

/-- `mtext` (R126, R133). -/
def mtext : Mnemonic → Text
  | .unknown => "unknown".toList
  | .ldr => "ldr".toList
  | .str => "str".toList
  | .bzs => "bzs".toList
  | .bzc => "bzc".toList
  | .bcs => "bcs".toList
  | .bcc => "bcc".toList
  | .bge => "bge".toList
  | .blt => "blt".toList
  | .b => "b".toList
  | .bl => "bl".toList
  | .mov => "mov".toList
  | .movt => "movt".toList
  | .add => "add".toList
  | .sub => "sub".toList
  | .adc => "adc".toList
  | .sbc => "sbc".toList
  | .cmp => "cmp".toList
  | .mvn => "mvn".toList
  | .movs => "movs".toList
  | .msr => "msr".toList
  | .mrs => "mrs".toList
  | .and => "and".toList
  | .orr => "orr".toList
  | .eor => "eor".toList
  | .lsl => "lsl".toList
  | .lsr => "lsr".toList

/-- Kind REG: `rN` (R127). -/
def fragReg (v : Word16) : Text := 'r' :: decimal v

/-- Kind REGA: `pc` for 15, `lr` for 14, otherwise as REG (R128). -/
def fragRegAlias (v : Word16) : Text :=
  if v = 15#16 then "pc".toList else if v = 14#16 then "lr".toList else fragReg v

/-- Kind IMM: `#` and the unsigned decimal value (R129). -/
def fragImm (v : Word16) : Text := '#' :: decimal v

/-- Kind PSR: `cspr` for 0, `spsr` for 1, spelled as the document does (R131, D33). -/
def fragPsr (v : Word16) : Text := if v = 0#16 then "cspr".toList else "spsr".toList

/-- The fragment of one operand (R127 to R131); an unused slot renders as nothing (R68). -/
def frag (o : Operand) : Text :=
  match o.kind with
  | .none => []
  | .reg => fragReg o.val
  | .rega => fragRegAlias o.val
  | .imm => fragImm o.val
  | .addr => hex4 o.val
  | .psr => fragPsr o.val

/-- `a ++ ", " ++ b` (R132). -/
def join2 (a b : Text) : Text := a ++ ", ".toList ++ b

/-- `a ++ ", " ++ b ++ ", " ++ c` (R132). -/
def join3 (a b c : Text) : Text := a ++ ", ".toList ++ b ++ ", ".toList ++ c

/-- `a ++ ", [" ++ b ++ ", " ++ c ++ "]"`: a memory operand (R132). -/
def joinMem (a b c : Text) : Text := a ++ ", [".toList ++ b ++ ", ".toList ++ c ++ "]".toList

/-- `operands_text`, by form (R132, R133). -/
def operandsText (o : OdeOut) : Text :=
  match o.form with
  | .none => []
  | .memi => joinMem (frag o.op0) (frag o.op1) (frag o.op2)
  | .memr => joinMem (frag o.op0) (frag o.op1) (frag o.op2)
  | .br => frag o.op0
  | .movi => join2 (frag o.op0) (frag o.op1)
  | .r3 => join3 (frag o.op0) (frag o.op1) (frag o.op2)
  | .ri4 => join3 (frag o.op0) (frag o.op1) (frag o.op2)
  | .cmp => join2 (frag o.op0) (frag o.op1)
  | .hi2 => join2 (frag o.op0) (frag o.op1)
  | .msr => join2 (frag o.op0) (frag o.op1)
  | .mrs => join2 (frag o.op0) (frag o.op1)
  | .sh => join3 (frag o.op0) (frag o.op1) (frag o.op2)

/-- `render(out)` = (mnemonic text, operand text) (R125). -/
def render (o : OdeOut) : Text × Text := (mtext o.mnem, operandsText o)

/-- A line of the listing as printed (R136): one space after the address, a tab before the mnemonic and before the operands,
the second tab also where the operands are empty (D28). -/
def DisassemblyLine.text (l : DisassemblyLine) : Text :=
  hex4 l.address ++ " ".toList ++ hex2 l.rawLo ++ hex2 l.rawHi ++ "\t".toList ++ l.mnemonic ++ "\t".toList ++ l.operands

end Sys2Proof.Machine
end

