-- ==== Sys2Proof/Machine/Environment.lean ====
section
/-! DEFINITION. The environment of the dispatch engine, as far as 00_scope.md R3 item 3 puts it in scope: how a record's bytes become the
engine's inputs (20_memory.md R21 to R24) and how its outputs become listing lines (49_rendering.md R136, R137). -/

namespace Sys2Proof.Machine

/-- The data-model invariant of a record: "payload.length == byte_count" (R21). -/
def HexRecord.wf (r : HexRecord) : Bool := decide (r.payload.length = r.byteCount.toNat)

/-- The address of word `k` of a record, modulo 2^16 (R23, D34). -/
def HexRecord.addressAt (r : HexRecord) (k : Nat) : Word16 := r.address + BitVec.ofNat 16 (2 * k)

/-- `next_pc` for the word at an address: the address plus 2, modulo 2^16 (R23, D34). -/
def nextPcAt (address : Word16) : Word16 := address + 2#16

/-- The two bytes of word `k`, low byte first, where the record has both (R22, R24). -/
def HexRecord.bytesAt (r : HexRecord) (k : Nat) : Option (Byte × Byte) :=
  match r.payload.drop (2 * k) with
  | lo :: hi :: _ => some (lo, hi)
  | _ => none

/-- What the environment has for the dispatch engine next. -/
inductive Presentation where
  | word (address : Word16) (lo hi : Byte)
  | recordDone
  | endOfData
  | nothing
  | stop (f : Fault)
  | refuse (r : Refusal)
  deriving DecidableEq, Repr

/-- What a record has at word index `k`: a data record with an even byte count its words in order (R22, R23), an end-of-data record no
word (R21); record types 2 to 5 (U9), invalid types (R21) and odd byte counts (R24, U10) present nothing and are refused. DESIGN
CHOICE, since no rule says which check comes first: the length invariant (notes/assumptions/10.md), then the type, then the parity of a
data record only, so that an end-of-data record with an odd byte count ends the stream (notes/assumptions/22.md). -/
def HexRecord.presentation (r : HexRecord) (k : Nat) : Presentation :=
  if r.wf = false then .stop .recordLengthMismatch
  else if r.recordType = 1#8 then .endOfData
  else if 5 < r.recordType.toNat then .refuse .invalidRecordType
  else if r.recordType ≠ 0#8 then .refuse .unhandledRecordType
  else if r.payload.length % 2 = 1 then .refuse .oddByteCount
  else match r.bytesAt k with
    | some (lo, hi) => .word (r.addressAt k) lo hi
    | none => .recordDone

/-- What the pending records have next; after an end-of-data record, nothing ever again (R21: terminal). -/
def State.presentation (s : State) : Presentation :=
  if s.streamComplete then .nothing
  else match s.records with
    | [] => .nothing
    | r :: _ => r.presentation s.wordIndex

/-- The environment drives the dispatch engine's two input ports for a word at an address (R22, R23) and counts the word. -/
def State.presentWord (s : State) (address : Word16) (lo hi : Byte) : State :=
  { s with odeIn := ⟨assembleWord lo hi, nextPcAt address⟩, wordIndex := s.wordIndex + 1 }

/-- The line of a word: its address, its two bytes in file order, and the rendering of the outputs (R136). -/
def lineOf (address : Word16) (lo hi : Byte) (out : OdeOut) : DisassemblyLine where
  address := address
  rawLo := lo
  rawHi := hi
  mnemonic := (render out).1
  operands := (render out).2

/-- The listing grows by one line, at its end (R28, R137). -/
def State.printLine (s : State) (l : DisassemblyLine) : State := { s with listing := s.listing ++ [l] }

/-- The environment goes on to the next record. -/
def State.nextRecord (s : State) : State := { s with records := s.records.tail, wordIndex := 0 }

/-- An end-of-data record ends the stream, printing no line (R21, R137). -/
def State.endStream (s : State) : State := { s with streamComplete := true }

/-- The listing line the environment prints after an evaluation of a presented word (R136, R137). -/
def afterWord (address : Word16) (lo hi : Byte) : Host.Outcome State Fault Refusal → Host.Outcome State Fault Refusal
  | .next t => .next (t.printLine (lineOf address lo hi t.odeOut))
  | .fault r => .fault r
  | .refused r => .refused r

end Sys2Proof.Machine
end

