-- ==== Sys2Proof/Machine/Step.lean ====
section
/-! DEFINITION. One step: one evaluation of one block (70_reset_and_hazards.md R157), or one move of the environment between words. -/

namespace Sys2Proof.Machine

/-- The step: `ode` and `bfu` evaluate that block on its present inputs (R155); `record` has the environment present the next word,
evaluates the dispatch engine on it and prints its line, an unknown word like any other (R143, R146). -/
def step (s : State) : Host.Outcome State Fault Refusal :=
  match s.select with
  | .ode => exec (decode (.word s.odeIn.word)) s
  | .bfu => exec (decode (.bfOp s.bfuIn.op)) s
  | .record =>
    match s.presentation with
    | .word address lo hi =>
      afterWord address lo hi (exec (decode (.word (assembleWord lo hi))) (s.presentWord address lo hi))
    | .recordDone => .next s.nextRecord
    | .endOfData => .next s.endStream
    | .nothing => .next s
    | .stop f => .fault f
    | .refuse r => .refused r

/-- The instruction of a table row put where the next step takes it: a word on the dispatch engine's `word` port, `bf_op` on the
bit-field unit's, and that block selected. Nothing else changes: the other inputs are the instruction's operands. -/
def State.withFetchWord (s : State) (nbits w : Nat) : State :=
  if nbits = 16 then { s with select := .ode, odeIn := ⟨BitVec.ofNat 16 w, s.odeIn.nextPc⟩ }
  else if nbits = 8 then { s with select := .bfu, bfuIn := { s.bfuIn with op := BitVec.ofNat 1 w } }
  else s

end Sys2Proof.Machine
end

