-- ==== Sys2Proof/Machine/Engine.lean ====
section
/-! DEFINITION. Each block as ONE function of its inputs (10_state.md R10): the dispatch engine as 41_dispatch.md R69 assembles it, with
the OPEN parameters of 00_scope.md R5 as an argument, and the bit-field unit with `SET_TOP` as an argument. `Params.spec` and
`SetTop.preserve` give the spec's machine; the decoder and the meanings of the instructions are another writing of that machine. -/

namespace Sys2Proof.Machine

/-- A decode case whose mnemonic comes from an OPEN table: `Mnemonic.unknown` there stands for "unknown" (R123). -/
def emitCase (cls : BitVec 3) (m : Mnemonic) (f : Form) (a b c : Word16) : OdeOut :=
  if m = .unknown then unknownOutcome cls else emit cls m f a b c

/-- The mnemonic of a branch, `BR[word[12:10]]` (R81). -/
def branchMnemonic (sub3 : BitVec 3) : Mnemonic := mux8 sub3 .bzs .bzc .bcs .bcc .bge .blt .b .bl

/-- Classes 0 and 1 under `LS_TABLE` (R70 to R75, D8). -/
def loadStoreWith (P : Params) (m : Mnemonic) (w : Word16) : OdeOut :=
  match P.lsTable (fieldSub3 w).toFin with
  | .imm => emit (fieldCls w) m .memi (fieldVal (fieldRd w)) (fieldVal (fieldRn w)) (fieldVal (fieldImm3 w))
  | .reg => emit (fieldCls w) m .memr (fieldVal (fieldRd w)) (fieldVal (fieldRn w)) (fieldVal (fieldRm w))
  | .unknown => unknownOutcome (fieldCls w)

/-- Class 5 sub-case 2 under `HI_TABLE` (R104, D18). -/
def hiWith (P : Params) (w : Word16) : OdeOut :=
  match P.hiTable (fieldFn3 w).toFin with
  | .move m => emitCase (fieldCls w) m .hi2 (fieldVal (fieldRd w)) (fieldVal (fieldRm w)) 0#16
  | .msr p => emit (fieldCls w) .msr .msr p.val (fieldVal (fieldRm w)) 0#16
  | .mrs p => emit (fieldCls w) .mrs .mrs (fieldVal (fieldRd w)) p.val 0#16
  | .unknown => unknownOutcome (fieldCls w)

/-- Class 7 under `SHAMT_W` and `SHIFT_TABLE` (R123): with a 4-bit amount it is word[10:7] and the selector word[12:11]. -/
def shiftWith (P : Params) (w : Word16) : OdeOut :=
  match P.shiftTable with
  | .five t => emitCase (fieldCls w) (t (fieldSub1 w).toFin) .sh (fieldVal (fieldRd w)) (fieldVal (fieldRn w)) (fieldVal (fieldShamt w))
  | .four t => emitCase (fieldCls w) (t (fieldSub2 w).toFin) .sh (fieldVal (fieldRd w)) (fieldVal (fieldRn w)) (fieldVal (fieldImm4 w))

/-- The whole dispatch engine as one function of `word` and `next_pc` (R69), total (R61), for any value of the OPEN parameters. -/
def odeWith (P : Params) (w nextPc : Word16) : OdeOut :=
  let cls := fieldCls w
  let rd := fieldVal (fieldRd w)
  let rn := fieldVal (fieldRn w)
  let rm := fieldVal (fieldRm w)
  if cls = 0#3 then loadStoreWith P .ldr w
  else if cls = 1#3 then loadStoreWith P .str w
  else if cls = 2#3 then
    emit cls (branchMnemonic (fieldSub3 w)) .br (branchTargetWith P.branchMask nextPc (fieldOff10 w)) 0#16 0#16
  else if cls = 3#3 then
    emit cls (if fieldSub1 w = 0#1 then .mov else .movt) .movi rd (fieldVal (fieldImm8 w)) 0#16
  else if cls = 4#3 then emit cls (mux4 (fieldSub2 w) .add .sub .adc .sbc) .r3 rd rn rm
  else if cls = 5#3 then
    if fieldSub2 w = 0#2 then emit cls .add .ri4 rd rn (fieldVal (fieldImm4 w))
    else if fieldSub2 w = 1#2 then emit cls .sub .ri4 rd rn (fieldVal (fieldImm4 w))
    else if fieldSub2 w = 3#2 then emit cls .cmp .cmp rn rm 0#16
    else hiWith P w
  else if cls = 6#3 then emitCase cls (P.logicalTable (fieldSub2 w).toFin) .r3 rd rn rm
  else shiftWith P w

/-- The dispatch engine of the spec's machine. -/
def ode (w nextPc : Word16) : OdeOut := odeWith Params.spec w nextPc

/-- The whole bit-field unit as one function of its input ports (R50 to R54), with `SET_TOP` as an argument (U7). -/
def bfuWith (top : SetTop) (i : BfuIn) : BfuOut :=
  if i.op = 0#1 then bfuOutOf (getBits i.value i.msp.toNat i.lsp.toNat)
  else bfuOutOf (setBitsWith top i.value i.msp.toNat i.lsp.toNat i.newValue)

/-- The bit-field unit of the spec's machine. -/
def bfu (i : BfuIn) : BfuOut := bfuWith .preserve i

end Sys2Proof.Machine
end

