-- ==== Sys2Proof/Safety.lean ====
section
/-! DEFINITION. What claims about the machine are stated in: when the outputs are settled, when the listing is faithful, and what a whole
record's listing is. -/

namespace Sys2Proof.Machine

/-- Both blocks' outputs are the function of their present inputs (10_state.md R10, R17; 70_reset_and_hazards.md R155). -/
abbrev State.Settled (s : State) : Prop :=
  s.odeOut = ode s.odeIn.word s.odeIn.nextPc ∧ s.bfuOut = bfu s.bfuIn

/-- A listing line says what its own bytes decode to at its own address (R136), whatever was decoded before it (R154). -/
abbrev DisassemblyLine.Faithful (l : DisassemblyLine) : Prop :=
  (l.mnemonic, l.operands) = render (ode (assembleWord l.rawLo l.rawHi) (nextPcAt l.address))

/-- Every line of the listing is faithful. -/
abbrev State.ListingFaithful (s : State) : Prop := ∀ l ∈ s.listing, l.Faithful

/-- `v[hi:lo]` of a word, as a 16-bit number (00_scope.md R6): the notation of the spec's rules, not the unit's GET. -/
def slice (w : Word16) (hi lo : Nat) : Word16 := (w.extractLsb' lo (hi - lo + 1)).setWidth 16

/-- A word lies in the opcode-map row (match, mask): "(w & mask) = match" (30_encoding.md section 6). -/
abbrev inRow (w bits rowMask : Word16) : Prop := w &&& rowMask = bits

/-- The step is an evaluation of the dispatch engine that drives its outputs to `out` and changes nothing else. -/
abbrev State.Outputs (s : State) (out : OdeOut) : Prop := step s = .next { s with odeOut := out }

/-- An operand slot that is not used (41_dispatch.md R65). -/
def unused : Operand := ⟨.none, 0#16⟩

/-- The dispatch engine is evaluated next. -/
abbrev State.EvaluatesOde (s : State) : Prop := s.select = .ode

/-- The text of a word's instruction with a given `next_pc`: what the spec's worked examples print. -/
def reads (w nextPc : Word16) (mnemonic operands : String) : Bool :=
  decide (render (ode w nextPc) = (mnemonic.toList, operands.toList))

/-- The positions of the bit-field unit are legal: `lsp <= msp` and `msp <= 31` (40_bitfield.md R51). -/
abbrev BfuIn.Legal (i : BfuIn) : Prop := i.lsp.toNat ≤ i.msp.toNat ∧ i.msp.toNat ≤ 31

/-- The shape every output of the dispatch engine has (R65, R68): kinds and their number follow from the form, an unused slot is
(NONE, 0), `unknown` is 1 exactly for the mnemonic UNKNOWN and the form F_NONE, and no value passes its kind's bound. -/
abbrev OdeOut.Shaped (o : OdeOut) : Prop :=
  o.nops = o.form.nops ∧ o.op0.kind = o.form.kind0 ∧ o.op1.kind = o.form.kind1 ∧ o.op2.kind = o.form.kind2
  ∧ (o.op0.kind = .none → o.op0.val = 0#16) ∧ (o.op1.kind = .none → o.op1.val = 0#16)
  ∧ (o.op2.kind = .none → o.op2.val = 0#16)
  ∧ (o.unknown = true ↔ o.mnem = .unknown) ∧ (o.unknown = true ↔ o.form = .none)

/-- The largest value a kind's `val` takes (R68; R35 for IMM). -/
def kindBound : Kind → Nat
  | .none => 0
  | .reg => 15
  | .rega => 15
  | .imm => 255
  | .addr => 0x3FF
  | .psr => 1

/-- Every operand's value is within its kind's bound (R68). -/
abbrev OdeOut.Bounded (o : OdeOut) : Prop :=
  o.op0.val.toNat ≤ kindBound o.op0.kind ∧ o.op1.val.toNat ≤ kindBound o.op1.kind
  ∧ o.op2.val.toNat ≤ kindBound o.op2.kind

/-- The line of word `k` of a record, from the record alone (R22, R23, R136). -/
def HexRecord.lineAt (r : HexRecord) (k : Nat) : DisassemblyLine :=
  let lo := r.payload.getD (2 * k) 0#8
  let hi := r.payload.getD (2 * k + 1) 0#8
  lineOf (r.addressAt k) lo hi (ode (assembleWord lo hi) (nextPcAt (r.addressAt k)))

/-- The first `n` lines of a record's listing, in the order of its words (R28, R137). -/
def HexRecord.lines (r : HexRecord) (n : Nat) : List DisassemblyLine := (List.range n).map r.lineAt

/-- A data record the environment may present: its length is its byte count, its type is data, its byte count is even (R21, R24). -/
abbrev HexRecord.Presentable (r : HexRecord) : Prop :=
  r.wf = true ∧ r.recordType = 0#8 ∧ r.payload.length % 2 = 0

/-- A pending record that stops the machine where it stands: it breaks R21's invariant, or its type is neither data nor end-of-data,
or it is a data record with an odd byte count (R24). -/
abbrev HexRecord.Stops (r : HexRecord) : Prop :=
  r.wf = false ∨ (r.recordType ≠ 0#8 ∧ r.recordType ≠ 1#8) ∨ (r.recordType = 0#8 ∧ r.payload.length % 2 = 1)

/-- An ASCII text that does not end in a space or a comma (R134). -/
def cleanText (t : Text) : Bool :=
  t.all (fun c => decide (c.toNat < 128)) && decide (t.getLast? ≠ some ' ') && decide (t.getLast? ≠ some ',')

/-- The upper-case hexadecimal digits of a number at these places, each given by its weight (49_rendering.md R130, R136). -/
def hexDigits (n : Nat) (weights : List Nat) : Text :=
  weights.map (fun p => "0123456789ABCDEF".toList.getD (n / p % 16) '?')

/-- `decimal(val)` without naming a way to compute it: digits only, no leading zero, and the number they denote is `n` (R127, R129). -/
def isDecimal (t : Text) (n : Nat) : Bool :=
  t.all Char.isDigit && decide (t.foldl (fun a c => 10 * a + (c.toNat - 48)) 0 = n)
    && (decide (t.length = 1) || decide (2 ≤ t.length ∧ t.head? ≠ some '0'))

/-- The table of 41_dispatch.md R67, with the text of R126 and R133 for each name. -/
def mnemonicTable : List (Mnemonic × Nat × String) :=
  [(.unknown, 0, "unknown"), (.ldr, 1, "ldr"), (.str, 2, "str"), (.bzs, 3, "bzs"), (.bzc, 4, "bzc"), (.bcs, 5, "bcs"),
    (.bcc, 6, "bcc")]
  ++ [(.bge, 7, "bge"), (.blt, 8, "blt"), (.b, 9, "b"), (.bl, 10, "bl"), (.mov, 11, "mov"), (.movt, 12, "movt"),
    (.add, 13, "add")]
  ++ [(.sub, 14, "sub"), (.adc, 15, "adc"), (.sbc, 16, "sbc"), (.cmp, 17, "cmp"), (.mvn, 18, "mvn"), (.movs, 19, "movs"),
    (.msr, 20, "msr")]
  ++ [(.mrs, 21, "mrs"), (.and, 22, "and"), (.orr, 23, "orr"), (.eor, 24, "eor"), (.lsl, 25, "lsl"), (.lsr, 26, "lsr")]

/-- The table of operand kinds (R68). -/
def kindTable : List (Kind × Nat) :=
  [(.none, 0), (.reg, 1), (.rega, 2), (.imm, 3), (.addr, 4), (.psr, 5)]

/-- The table of forms (R68): code, number of operands, and the kinds of the three slots. -/
def formTable : List (Form × Nat × Nat × Kind × Kind × Kind) :=
  [(.none, 0, 0, .none, .none, .none), (.memi, 1, 3, .reg, .reg, .imm), (.memr, 2, 3, .reg, .reg, .reg),
    (.br, 3, 1, .addr, .none, .none)]
  ++ [(.movi, 4, 2, .reg, .imm, .none), (.r3, 5, 3, .reg, .reg, .reg), (.ri4, 6, 3, .reg, .reg, .imm),
    (.cmp, 7, 2, .reg, .reg, .none)]
  ++ [(.hi2, 8, 2, .rega, .rega, .none), (.msr, 9, 2, .psr, .reg, .none), (.mrs, 10, 2, .reg, .psr, .none),
    (.sh, 11, 3, .reg, .reg, .imm)]

end Sys2Proof.Machine
end

