-- ==== Sys2Proof/Certificates/Slice0/Obligations.lean ====
section
/-! DEFINITION. The statements for the provers. OBLIGATIONS.json lists them with the rules they formalise. A statement that rests on a decision the
spec marks as its own, or on a choice of the model's log, says so in its docstring. -/

open Sys2Proof Sys2Proof.Machine

/-- For every well-formed instruction, of every family, with every operand at every value its field admits, decoding its
code gives the instruction back. The encoder is the model's own (log entry 14): the document has no encoding
direction. The rows are those of the spec, its own decisions among them (log entry 6).
(Derived: 30_encoding.md section 3 (R32), 30_encoding.md section 6, 00_scope.md R4 item 3.) -/
def Obligations.EncodeThenDecodeGivesTheInstructionBack : Prop :=
  ∀ i : Instr, i.wf = true → decode (encode i) = i

/-- Whatever the code, a word or the operation select of the bit-field unit, the instruction decoded from it is well-
formed: its base register is r0 to r7.
(Derived: 30_encoding.md section 5 (R36), 10_state.md section 2 (R12).) -/
def Obligations.DecodedInstructionsAreWellFormed : Prop :=
  ∀ c : Code, (decode c).wf = true

/-- For every 16-bit word, exactly one of the 33 decode rows and 8 unknown patterns covers it, and that row is the row of
the instruction it decodes to. R42, marked as derived in the spec, whose rows are partly its own decisions (log entry
6).
(Derived: 30_encoding.md section 6, 30_encoding.md section 7 (R42, derived there).) -/
def Obligations.EachWordLiesInExactlyOneOpcodeRow : Prop :=
  ∀ w : Word16, ∃ p, opcodeRows.filter (fun q => q.covers w) = [p] ∧ (decodeWord w).pattern = some p

/-- For every word, encoding the instruction it decodes to gives the word with the bits its form ignores set to 0 and
every other bit unchanged; so two words that differ in ignored bits only decode alike (D29, the spec's decision; log
entries 6 and 14).
(Derived: 30_encoding.md section 7 (R39), 92_eei_decisions.md D29.) -/
def Obligations.ReencodingClearsExactlyTheIgnoredBits : Prop :=
  (∀ w : Word16, encode (decodeWord w) = .word (w &&& (decodeWord w).careMask))
  ∧ ∀ w v : Word16, w &&& (decodeWord w).careMask = v &&& (decodeWord w).careMask → decodeWord w = decodeWord v

/-- A few words, one or two of each family, written out from the spec's encodings, decode to the instruction they stand
for, and the two values of bf_op select GET and SET (R50, the spec's own decision D1). The tables that these words are
read by are the spec's own decisions (log entry 6).
(Derived: 95_test_vectors.md section 2.6, 95_test_vectors.md section 2.7, 40_bitfield.md section 1 (R50),
92_eei_decisions.md D1.) -/
def Obligations.SpecWordsDecodeAsWritten : Prop :=
  decodeWord 0x0295#16 = .ldrImm 5#4 1#4 5#3 ∧ decodeWord 0x37FF#16 = .strReg 15#4 7#4 15#4
  ∧ decodeWord 0x5C0C#16 = .bl 12#10 ∧ decodeWord 0x7ABC#16 = .movt 12#4 171#8
  ∧ decodeWord 0x9B12#16 = .sbc 2#4 1#4 6#4 ∧ decodeWord 0xA1B2#16 = .addImm 2#4 3#4 3#4
  ∧ decodeWord 0xB70F#16 = .movReg 15#4 14#4 ∧ decodeWord 0xB150#16 = .msrSpsr 2#4
  ∧ decodeWord 0xB9A7#16 = .cmp 2#4 3#4 ∧ decodeWord 0xC1A3#16 = .andReg 3#4 2#4 3#4
  ∧ decodeWord 0xEFFF#16 = .lsl 15#4 7#4 31#5 ∧ decodeWord 0xB030#16 = .unknownX7
  ∧ decodeBfOp 0#1 = .bfGet ∧ decodeBfOp 1#1 = .bfSet

/-- With the dispatch engine selected, the step is exec of the instruction on the word port; with the bit-field unit
selected, of the one bf_op selects; where the environment presents a word, its ports are driven first, then exec runs
the decoded word, then the line is printed. withFetchWord places a table row so that the next step runs exactly it.
The selection is the model's own field (log entry 2), and that GET and SET are placed as one byte with bf_op in bit 0
is its reading of the table (log entry 15).
(Derived: 41_dispatch.md section 1 (R60), 40_bitfield.md section 1 (R50), 20_memory.md section 2 (R22, R23),
49_rendering.md section 3 (R136, R137).) -/
def Obligations.StepRunsTheDecodedInstruction : Prop :=
  (∀ s : State, s.select = .ode → step s = exec (decodeWord s.odeIn.word) s)
  ∧ (∀ s : State, s.select = .bfu → step s = exec (decodeBfOp s.bfuIn.op) s)
  ∧ (∀ (s : State) (a : Word16) (lo hi : Byte), s.select = .record → s.presentation = .word a lo hi →
      step s = afterWord a lo hi (exec (decodeWord (assembleWord lo hi)) (s.presentWord a lo hi)))
  ∧ (∀ (s : State) (w : Nat) (i : Instr), decodeTableWord 16 w = some i →
      step (s.withFetchWord 16 w) = exec i (s.withFetchWord 16 w))
  ∧ (∀ (s : State) (w : Nat) (i : Instr), decodeTableWord 8 w = some i →
      step (s.withFetchWord 8 w) = exec i (s.withFetchWord 8 w))

/-- For all 2^16 words and all 2^16 values of next_pc, in any state, evaluating the dispatch engine answers a next state
(it never stops) whose outputs are those of the whole function ode of word and next_pc, assembled class by class as
R69 writes it; nothing else changes. The tables that R69 assembles are the spec's own decisions D8 to D27, at their
defaults (log entry 6).
(Derived: 41_dispatch.md section 1 (R61), 41_dispatch.md section 4 (R69), notes/assumptions/6.md.) -/
def Obligations.EveryWordAndNextPcHasTheOutputsOfTheWholeFunction : Prop :=
  ∀ (s : State) (w pc : Word16),
    step { s with select := .ode, odeIn := ⟨w, pc⟩ }
      = .next { s with select := .ode, odeIn := ⟨w, pc⟩, odeOut := ode w pc }

/-- When the dispatch engine is evaluated on a word with bits 15 to 10 zero, the step answers a next state with class 0,
mnemonic ldr, form F_MEMI, three operands REG word[3:0], REG word[6:4], IMM word[9:7], unknown 0, whatever next_pc is,
and nothing else changes; with the rule's two worked examples. That word[12:10] is the selector and that the offset is
not scaled are the spec's own decisions D8 and D10 (log entry 6).
(Derived: 42_load_store.md section 1 (R71), 92_eei_decisions.md D8, 92_eei_decisions.md D10.) -/
def Obligations.LoadImmediateWordsGiveLdr : Prop :=
  (∀ s : State, s.EvaluatesOde →
    (inRow s.odeIn.word 0x0000#16 0xFC00#16 →
    s.Outputs ⟨0#3, .ldr, .memi, 3#2, ⟨.reg, slice s.odeIn.word 3 0⟩, ⟨.reg, slice s.odeIn.word 6 4⟩, ⟨.imm, slice s.odeIn.word 9 7⟩, false⟩))
  ∧ reads 0x0000#16 0#16 "ldr" "r0, [r0, #0]" = true
  ∧ reads 0x0295#16 0#16 "ldr" "r5, [r1, #5]" = true

/-- When the dispatch engine is evaluated on a word of one of these rows, its class, mnemonic, form and operands are as
R72, R73 and R74 give them and nothing else changes. The selector values and the mnemonic str are the spec's own
decisions D8 and D9 (log entry 6).
(Derived: 42_load_store.md (R72, R73, R74), 92_eei_decisions.md D8, 92_eei_decisions.md D9.) -/
def Obligations.LoadIndexedAndStoreWordsGiveTheirForms : Prop :=
  (∀ s : State, s.EvaluatesOde →
    (inRow s.odeIn.word 0x1000#16 0xF800#16 →
    s.Outputs ⟨0#3, .ldr, .memr, 3#2, ⟨.reg, slice s.odeIn.word 3 0⟩, ⟨.reg, slice s.odeIn.word 6 4⟩, ⟨.reg, slice s.odeIn.word 10 7⟩, false⟩)
    ∧ (inRow s.odeIn.word 0x2000#16 0xFC00#16 →
    s.Outputs ⟨1#3, .str, .memi, 3#2, ⟨.reg, slice s.odeIn.word 3 0⟩, ⟨.reg, slice s.odeIn.word 6 4⟩, ⟨.imm, slice s.odeIn.word 9 7⟩, false⟩)
    ∧ (inRow s.odeIn.word 0x3000#16 0xF800#16 →
    s.Outputs ⟨1#3, .str, .memr, 3#2, ⟨.reg, slice s.odeIn.word 3 0⟩, ⟨.reg, slice s.odeIn.word 6 4⟩, ⟨.reg, slice s.odeIn.word 10 7⟩, false⟩))
  ∧ reads 0x13A1#16 0#16 "ldr" "r1, [r2, r7]" = true
  ∧ reads 0x17FF#16 0#16 "ldr" "r15, [r7, r15]" = true
  ∧ reads 0x2010#16 0#16 "str" "r0, [r1, #0]" = true
  ∧ reads 0x3000#16 0#16 "str" "r0, [r0, r0]" = true
  ∧ reads 0x37FF#16 0#16 "str" "r15, [r7, r15]" = true

/-- When the dispatch engine is evaluated on a word of one of the eight branch rows, its mnemonic is the row's, its form
F_BR with one operand, ADDR of the sum of next_pc and twice word[9:0], taken over the naturals and reduced modulo
1024; nothing else changes; with the worked examples of the eight rules. Which selector value gives which mnemonic,
and that the offset is read unsigned, are the spec's own decisions D11 and D12 (log entry 6).
(Derived: 43_branch.md section 1 (R81, R82), 43_branch.md section 2 (R84 to R91), 92_eei_decisions.md D11,
92_eei_decisions.md D12.) -/
def Obligations.BranchWordsGiveMnemonicAndTarget : Prop :=
  (∀ s : State, s.EvaluatesOde →
    ∀ p ∈ [(0x4000#16, Mnemonic.bzs), (0x4400#16, .bzc), (0x4800#16, .bcs), (0x4C00#16, .bcc),
      (0x5000#16, .bge), (0x5400#16, .blt), (0x5800#16, .b), (0x5C00#16, .bl)],
      inRow s.odeIn.word p.1 0xFC00#16 → s.Outputs ⟨2#3, p.2, .br, 1#2, ⟨.addr, BitVec.ofNat 16 ((s.odeIn.nextPc.toNat + 2 * (slice s.odeIn.word 9 0).toNat) % 1024)⟩, unused, unused, false⟩)
  ∧ reads 0x4000#16 0x0002#16 "bzs" "0002" = true
  ∧ reads 0x43FF#16 0x0002#16 "bzs" "0000" = true
  ∧ reads 0x4401#16 0x0010#16 "bzc" "0012" = true
  ∧ reads 0x4A00#16 0x03FE#16 "bcs" "03FE" = true
  ∧ reads 0x4C05#16 0x0100#16 "bcc" "010A" = true
  ∧ reads 0x51FF#16 0x0004#16 "bge" "0002" = true
  ∧ reads 0x57FE#16 0x0008#16 "blt" "0004" = true
  ∧ reads 0x5800#16 0x0400#16 "b" "0000" = true
  ∧ reads 0x5BFF#16 0x0002#16 "b" "0000" = true
  ∧ reads 0x5C0C#16 0x0426#16 "bl" "003E" = true

/-- The target is below 0x400; reading the offset signed gives the same target, for every window mask of at most 11 low
bits; bit 9 of the offset and bits 15 to 10 of next_pc have no effect; the target's lowest bit is that of next_pc.
(Derived: 43_branch.md section 1 (R83, derived there), 93_implementation_defined.md U12.) -/
def Obligations.BranchTargetIgnoresSignBitNineAndHighAddressBits : Prop :=
  (∀ pc off, (branchTarget pc off).toNat < 0x400)
  ∧ (∀ (n : Nat) (pc : Word16) (off : BitVec 10), n ≤ 11 →
      (pc + 2#16 * off.signExtend 16) &&& BitVec.ofNat 16 (2 ^ n - 1)
        = branchTargetWith (BitVec.ofNat 16 (2 ^ n - 1)) pc off)
  ∧ (∀ pc off off', off.extractLsb' 0 9 = off'.extractLsb' 0 9 → branchTarget pc off = branchTarget pc off')
  ∧ (∀ pc pc' off, pc.extractLsb' 0 10 = pc'.extractLsb' 0 10 → branchTarget pc off = branchTarget pc' off)
  ∧ (∀ pc off, (branchTarget pc off).getLsbD 0 = pc.getLsbD 0)

/-- When the dispatch engine is evaluated on a class 3 word, bit 12 chooses mov or movt, the operands are REG word[3:0]
and IMM word[11:4], unshifted, and nothing else changes; with the rules' worked examples. The polarity of bit 12 and
the unshifted immediate are the spec's own decisions D13 and D10 (log entry 6).
(Derived: 44_move_immediate.md (R92, R93, R94), 92_eei_decisions.md D13, 92_eei_decisions.md D10.) -/
def Obligations.MoveImmediateWordsGiveMovAndMovt : Prop :=
  (∀ s : State, s.EvaluatesOde →
    (inRow s.odeIn.word 0x6000#16 0xF000#16 →
    s.Outputs ⟨3#3, .mov, .movi, 2#2, ⟨.reg, slice s.odeIn.word 3 0⟩, ⟨.imm, slice s.odeIn.word 11 4⟩, unused, false⟩)
    ∧ (inRow s.odeIn.word 0x7000#16 0xF000#16 →
    s.Outputs ⟨3#3, .movt, .movi, 2#2, ⟨.reg, slice s.odeIn.word 3 0⟩, ⟨.imm, slice s.odeIn.word 11 4⟩, unused, false⟩))
  ∧ reads 0x6125#16 0#16 "mov" "r5, #18" = true
  ∧ reads 0x6FFF#16 0#16 "mov" "r15, #255" = true
  ∧ reads 0x7FF0#16 0#16 "movt" "r0, #255" = true
  ∧ reads 0x7000#16 0#16 "movt" "r0, #0" = true

/-- When the dispatch engine is evaluated on a word of one of the four class 4 rows, the mnemonic is the row's, the form
F_R3, the operands REG word[3:0], REG word[6:4], REG word[10:7], and nothing else changes; with the rules' worked
examples. Selector, register positions and table order are the spec's own decision D14 (log entry 6).
(Derived: 45_arith_register.md (R95 to R99), 92_eei_decisions.md D14.) -/
def Obligations.ArithRegisterWordsGiveThreeRegisters : Prop :=
  (∀ s : State, s.EvaluatesOde →
    (inRow s.odeIn.word 0x8000#16 0xF800#16 →
    s.Outputs ⟨4#3, .add, .r3, 3#2, ⟨.reg, slice s.odeIn.word 3 0⟩, ⟨.reg, slice s.odeIn.word 6 4⟩, ⟨.reg, slice s.odeIn.word 10 7⟩, false⟩)
    ∧ (inRow s.odeIn.word 0x8800#16 0xF800#16 →
    s.Outputs ⟨4#3, .sub, .r3, 3#2, ⟨.reg, slice s.odeIn.word 3 0⟩, ⟨.reg, slice s.odeIn.word 6 4⟩, ⟨.reg, slice s.odeIn.word 10 7⟩, false⟩)
    ∧ (inRow s.odeIn.word 0x9000#16 0xF800#16 →
    s.Outputs ⟨4#3, .adc, .r3, 3#2, ⟨.reg, slice s.odeIn.word 3 0⟩, ⟨.reg, slice s.odeIn.word 6 4⟩, ⟨.reg, slice s.odeIn.word 10 7⟩, false⟩)
    ∧ (inRow s.odeIn.word 0x9800#16 0xF800#16 →
    s.Outputs ⟨4#3, .sbc, .r3, 3#2, ⟨.reg, slice s.odeIn.word 3 0⟩, ⟨.reg, slice s.odeIn.word 6 4⟩, ⟨.reg, slice s.odeIn.word 10 7⟩, false⟩))
  ∧ reads 0x8000#16 0#16 "add" "r0, r0, r0" = true
  ∧ reads 0x8251#16 0#16 "add" "r1, r5, r4" = true
  ∧ reads 0x8A51#16 0#16 "sub" "r1, r5, r4" = true
  ∧ reads 0x97FF#16 0#16 "adc" "r15, r7, r15" = true
  ∧ reads 0x9800#16 0#16 "sbc" "r0, r0, r0" = true
  ∧ reads 0x9B12#16 0#16 "sbc" "r2, r1, r6" = true

/-- When the dispatch engine is evaluated on a word of one of these rows, its outputs are as R101 to R103 give them, for
cmp whatever word[3:0] is, and nothing else changes. The operands are the spec's own decisions D15 to D17 (log entry
6).
(Derived: 46_arith_imm_compare_hi.md section 1 (R101, R102, R103), 92_eei_decisions.md D15, 92_eei_decisions.md D16,
92_eei_decisions.md D17.) -/
def Obligations.ArithImmediateAndCompareWordsGiveTheirForms : Prop :=
  (∀ s : State, s.EvaluatesOde →
    (inRow s.odeIn.word 0xA000#16 0xF800#16 →
    s.Outputs ⟨5#3, .add, .ri4, 3#2, ⟨.reg, slice s.odeIn.word 3 0⟩, ⟨.reg, slice s.odeIn.word 6 4⟩, ⟨.imm, slice s.odeIn.word 10 7⟩, false⟩)
    ∧ (inRow s.odeIn.word 0xA800#16 0xF800#16 →
    s.Outputs ⟨5#3, .sub, .ri4, 3#2, ⟨.reg, slice s.odeIn.word 3 0⟩, ⟨.reg, slice s.odeIn.word 6 4⟩, ⟨.imm, slice s.odeIn.word 10 7⟩, false⟩)
    ∧ (inRow s.odeIn.word 0xB800#16 0xF800#16 →
    s.Outputs ⟨5#3, .cmp, .cmp, 2#2, ⟨.reg, slice s.odeIn.word 6 4⟩, ⟨.reg, slice s.odeIn.word 10 7⟩, unused, false⟩))
  ∧ reads 0xA000#16 0#16 "add" "r0, r0, #0" = true
  ∧ reads 0xA1B2#16 0#16 "add" "r2, r3, #3" = true
  ∧ reads 0xAFFF#16 0#16 "sub" "r15, r7, #15" = true
  ∧ reads 0xB9A7#16 0#16 "cmp" "r2, r3" = true
  ∧ reads 0xB9A0#16 0#16 "cmp" "r2, r3" = true

/-- When the dispatch engine is evaluated on a word of one of the three rows, the operands are REGA word[3:0] and REGA
word[10:7], and nothing else changes. The FN3 values and the source field are the spec's own decisions D18 and D19
(log entry 6).
(Derived: 46_arith_imm_compare_hi.md section 2 (R104 to R107), 92_eei_decisions.md D18, 92_eei_decisions.md D19.) -/
def Obligations.HiMoveWordsGiveAliasOperands : Prop :=
  (∀ s : State, s.EvaluatesOde →
    (inRow s.odeIn.word 0xB000#16 0xF870#16 →
    s.Outputs ⟨5#3, .mov, .hi2, 2#2, ⟨.rega, slice s.odeIn.word 3 0⟩, ⟨.rega, slice s.odeIn.word 10 7⟩, unused, false⟩)
    ∧ (inRow s.odeIn.word 0xB010#16 0xF870#16 →
    s.Outputs ⟨5#3, .mvn, .hi2, 2#2, ⟨.rega, slice s.odeIn.word 3 0⟩, ⟨.rega, slice s.odeIn.word 10 7⟩, unused, false⟩)
    ∧ (inRow s.odeIn.word 0xB020#16 0xF870#16 →
    s.Outputs ⟨5#3, .movs, .hi2, 2#2, ⟨.rega, slice s.odeIn.word 3 0⟩, ⟨.rega, slice s.odeIn.word 10 7⟩, unused, false⟩))
  ∧ reads 0xB70F#16 0#16 "mov" "pc, lr" = true
  ∧ reads 0xB78E#16 0#16 "mov" "lr, pc" = true
  ∧ reads 0xB081#16 0#16 "mov" "r1, r1" = true
  ∧ reads 0xB010#16 0#16 "mvn" "r0, r0" = true
  ∧ reads 0xB79E#16 0#16 "mvn" "lr, pc" = true
  ∧ reads 0xB72F#16 0#16 "movs" "pc, lr" = true
  ∧ reads 0xB02F#16 0#16 "movs" "pc, r0" = true

/-- When the dispatch engine is evaluated on an msr or mrs word, in any state, the operands are the status-register name
and the general register as R108 to R111 give them, the ignored bits do not matter, and nothing else changes. Operand
order and fields are the spec's own decisions (log entry 6).
(Derived: 46_arith_imm_compare_hi.md section 2 (R108 to R111), 60_exceptions.md section 5 (R148), 92_eei_decisions.md
D18, 92_eei_decisions.md D20.) -/
def Obligations.StatusRegisterMoveWordsGiveNameAndRegister : Prop :=
  (∀ s : State, s.EvaluatesOde →
    (inRow s.odeIn.word 0xB040#16 0xF870#16 →
    s.Outputs ⟨5#3, .msr, .msr, 2#2, ⟨.psr, 0#16⟩, ⟨.reg, slice s.odeIn.word 10 7⟩, unused, false⟩)
    ∧ (inRow s.odeIn.word 0xB050#16 0xF870#16 →
    s.Outputs ⟨5#3, .msr, .msr, 2#2, ⟨.psr, 1#16⟩, ⟨.reg, slice s.odeIn.word 10 7⟩, unused, false⟩)
    ∧ (inRow s.odeIn.word 0xB060#16 0xF870#16 →
    s.Outputs ⟨5#3, .mrs, .mrs, 2#2, ⟨.reg, slice s.odeIn.word 3 0⟩, ⟨.psr, 0#16⟩, unused, false⟩)
    ∧ (inRow s.odeIn.word 0xB070#16 0xF870#16 →
    s.Outputs ⟨5#3, .mrs, .mrs, 2#2, ⟨.reg, slice s.odeIn.word 3 0⟩, ⟨.psr, 1#16⟩, unused, false⟩))
  ∧ reads 0xB0C0#16 0#16 "msr" "cspr, r1" = true
  ∧ reads 0xB74F#16 0#16 "msr" "cspr, r14" = true
  ∧ reads 0xB150#16 0#16 "msr" "spsr, r2" = true
  ∧ reads 0xB063#16 0#16 "mrs" "r3, cspr" = true
  ∧ reads 0xB7E3#16 0#16 "mrs" "r3, cspr" = true
  ∧ reads 0xB07F#16 0#16 "mrs" "r15, spsr" = true

/-- When the dispatch engine is evaluated on a word of one of the three assigned class 6 rows, the mnemonic is the row's,
the form F_R3, the operands REG word[3:0], REG word[6:4], REG word[10:7], and nothing else changes; with the rules'
worked examples. The three mnemonics, their order, the form and the selector are the spec's own decision D25 (log
entry 6).
(Derived: 47_logical_shift.md section 1 (R115 to R118), 92_eei_decisions.md D25.) -/
def Obligations.LogicalWordsGiveThreeRegisters : Prop :=
  (∀ s : State, s.EvaluatesOde →
    (inRow s.odeIn.word 0xC000#16 0xF800#16 →
    s.Outputs ⟨6#3, .and, .r3, 3#2, ⟨.reg, slice s.odeIn.word 3 0⟩, ⟨.reg, slice s.odeIn.word 6 4⟩, ⟨.reg, slice s.odeIn.word 10 7⟩, false⟩)
    ∧ (inRow s.odeIn.word 0xC800#16 0xF800#16 →
    s.Outputs ⟨6#3, .orr, .r3, 3#2, ⟨.reg, slice s.odeIn.word 3 0⟩, ⟨.reg, slice s.odeIn.word 6 4⟩, ⟨.reg, slice s.odeIn.word 10 7⟩, false⟩)
    ∧ (inRow s.odeIn.word 0xD000#16 0xF800#16 →
    s.Outputs ⟨6#3, .eor, .r3, 3#2, ⟨.reg, slice s.odeIn.word 3 0⟩, ⟨.reg, slice s.odeIn.word 6 4⟩, ⟨.reg, slice s.odeIn.word 10 7⟩, false⟩))
  ∧ reads 0xC000#16 0#16 "and" "r0, r0, r0" = true
  ∧ reads 0xC1A3#16 0#16 "and" "r3, r2, r3" = true
  ∧ reads 0xC8A1#16 0#16 "orr" "r1, r2, r1" = true
  ∧ reads 0xD123#16 0#16 "eor" "r3, r2, r2" = true

/-- When the dispatch engine is evaluated on a class 7 word, bit 12 chooses lsl or lsr, the operands are REG word[3:0],
REG word[6:4], IMM word[11:7], nothing is shifted by the amount, and nothing else changes; with the rules' worked
examples. The place of the amount, the selector bit and the two mnemonics are the spec's own decision D26 (log entry
6).
(Derived: 47_logical_shift.md section 2 (R120 to R122), 92_eei_decisions.md D26.) -/
def Obligations.ShiftWordsGiveRegistersAndAmount : Prop :=
  (∀ s : State, s.EvaluatesOde →
    (inRow s.odeIn.word 0xE000#16 0xF000#16 →
    s.Outputs ⟨7#3, .lsl, .sh, 3#2, ⟨.reg, slice s.odeIn.word 3 0⟩, ⟨.reg, slice s.odeIn.word 6 4⟩, ⟨.imm, slice s.odeIn.word 11 7⟩, false⟩)
    ∧ (inRow s.odeIn.word 0xF000#16 0xF000#16 →
    s.Outputs ⟨7#3, .lsr, .sh, 3#2, ⟨.reg, slice s.odeIn.word 3 0⟩, ⟨.reg, slice s.odeIn.word 6 4⟩, ⟨.imm, slice s.odeIn.word 11 7⟩, false⟩))
  ∧ reads 0xE000#16 0#16 "lsl" "r0, r0, #0" = true
  ∧ reads 0xEFFF#16 0#16 "lsl" "r15, r7, #31" = true
  ∧ reads 0xE1A1#16 0#16 "lsl" "r1, r2, #3" = true
  ∧ reads 0xF7F1#16 0#16 "lsr" "r1, r7, #15" = true
  ∧ reads 0xFFFF#16 0#16 "lsr" "r15, r7, #31" = true

/-- When the dispatch engine is evaluated on a word of classes 0 or 1 with word[12:10] = 1, word[12:11] = 01 or
word[12:11] = 11, or of class 5 with word[12:11] = 2 and word[6:4] = 3, the step answers a next state with mnemonic
UNKNOWN, form F_NONE, no operands, unknown 1 and the class driven; nothing else changes; with the rules' worked
examples. Which words are unmapped follows from the spec's own decisions D8 and D18, and the outcome is its D27 (log
entry 6).
(Derived: 42_load_store.md (R70, R75), 46_arith_imm_compare_hi.md section 2 (R104, R112), 41_dispatch.md section 2
(R64), 92_eei_decisions.md D8, 92_eei_decisions.md D18, 92_eei_decisions.md D27.) -/
def Obligations.UnmappedLoadStoreAndHiWordsGiveTheUnknownOutcome : Prop :=
  (∀ s : State, s.EvaluatesOde →
    ∀ p ∈ [(0x0400#16, 0xFC00#16), (0x0800#16, 0xF800#16), (0x1800#16, 0xF800#16), (0x2400#16, 0xFC00#16),
      (0x2800#16, 0xF800#16), (0x3800#16, 0xF800#16), (0xB030#16, 0xF870#16)],
      inRow s.odeIn.word p.1 p.2 →
        s.Outputs ⟨s.odeIn.word.extractLsb' 13 3, .unknown, .none, 0#2, unused, unused, unused, true⟩)
  ∧ [0x0400#16, 0x0800#16, 0x1800#16, 0x2400#16, 0x3FFF#16, 0xB030#16, 0xB7BF#16].all
      (fun w => reads w 0#16 "unknown" "") = true

/-- Evaluating the dispatch engine on any word answers a next state whose unknown output is 1 exactly when the word lies
in one of the eight patterns; then every output but the class is the fixed one of R64. The patterns follow from the
spec's own decisions (log entry 6).
(Derived: 30_encoding.md section 7 (R38, derived there), 41_dispatch.md section 2 (R64), 47_logical_shift.md section 1
(R119), 92_eei_decisions.md D25, 92_eei_decisions.md D27.) -/
def Obligations.UnknownExactlyOnTheEightPatterns : Prop :=
  ∀ s : State, s.EvaluatesOde → ∃ out, s.Outputs out
    ∧ (out.unknown = true ↔ ∃ p ∈ unknownPatterns, p.covers s.odeIn.word = true)
    ∧ (out.unknown = true →
        out = ⟨s.odeIn.word.extractLsb' 13 3, .unknown, .none, 0#2, unused, unused, unused, true⟩)

/-- exec of ldrImm, ldrReg, strImm, strReg answers a next state in every state and for all operands: the dispatch engine's
outputs are the ones the rules give and nothing else in the state changes. Where a table, a field or a form is the
spec's own decision, it stands at its default (log entry 6).
(Derived: 42_load_store.md (R71 to R74).) -/
def Obligations.ExecOfLoadsAndStoresCompletes : Prop :=
  ∀ (s : State) (rd rn rm : RegIdx) (imm3 : BitVec 3),
    exec (.ldrImm rd rn imm3) s = .next { s with odeOut := ⟨0#3, .ldr, .memi, 3#2, ⟨.reg, rd.setWidth 16⟩, ⟨.reg, rn.setWidth 16⟩, ⟨.imm, imm3.setWidth 16⟩, false⟩ }
    ∧ exec (.ldrReg rd rn rm) s = .next { s with odeOut := ⟨0#3, .ldr, .memr, 3#2, ⟨.reg, rd.setWidth 16⟩, ⟨.reg, rn.setWidth 16⟩, ⟨.reg, rm.setWidth 16⟩, false⟩ }
    ∧ exec (.strImm rd rn imm3) s = .next { s with odeOut := ⟨1#3, .str, .memi, 3#2, ⟨.reg, rd.setWidth 16⟩, ⟨.reg, rn.setWidth 16⟩, ⟨.imm, imm3.setWidth 16⟩, false⟩ }
    ∧ exec (.strReg rd rn rm) s = .next { s with odeOut := ⟨1#3, .str, .memr, 3#2, ⟨.reg, rd.setWidth 16⟩, ⟨.reg, rn.setWidth 16⟩, ⟨.reg, rm.setWidth 16⟩, false⟩ }

/-- exec of bzs, bzc, bcs, bcc, bge, blt, b and bl answers a next state in every state and for all operands: the dispatch
engine's outputs are the ones the rules give and nothing else in the state changes. Where a table, a field or a form
is the spec's own decision, it stands at its default (log entry 6).
(Derived: 43_branch.md (R80 to R91).) -/
def Obligations.ExecOfBranchesCompletes : Prop :=
  ∀ (s : State) (off10 : BitVec 10),
    exec (.bzs off10) s = .next { s with odeOut := ⟨2#3, .bzs, .br, 1#2, ⟨.addr, (s.odeIn.nextPc + 2#16 * off10.setWidth 16) &&& 0x3FF#16⟩, unused, unused, false⟩ }
    ∧ exec (.bzc off10) s = .next { s with odeOut := ⟨2#3, .bzc, .br, 1#2, ⟨.addr, (s.odeIn.nextPc + 2#16 * off10.setWidth 16) &&& 0x3FF#16⟩, unused, unused, false⟩ }
    ∧ exec (.bcs off10) s = .next { s with odeOut := ⟨2#3, .bcs, .br, 1#2, ⟨.addr, (s.odeIn.nextPc + 2#16 * off10.setWidth 16) &&& 0x3FF#16⟩, unused, unused, false⟩ }
    ∧ exec (.bcc off10) s = .next { s with odeOut := ⟨2#3, .bcc, .br, 1#2, ⟨.addr, (s.odeIn.nextPc + 2#16 * off10.setWidth 16) &&& 0x3FF#16⟩, unused, unused, false⟩ }
    ∧ exec (.bge off10) s = .next { s with odeOut := ⟨2#3, .bge, .br, 1#2, ⟨.addr, (s.odeIn.nextPc + 2#16 * off10.setWidth 16) &&& 0x3FF#16⟩, unused, unused, false⟩ }
    ∧ exec (.blt off10) s = .next { s with odeOut := ⟨2#3, .blt, .br, 1#2, ⟨.addr, (s.odeIn.nextPc + 2#16 * off10.setWidth 16) &&& 0x3FF#16⟩, unused, unused, false⟩ }
    ∧ exec (.b off10) s = .next { s with odeOut := ⟨2#3, .b, .br, 1#2, ⟨.addr, (s.odeIn.nextPc + 2#16 * off10.setWidth 16) &&& 0x3FF#16⟩, unused, unused, false⟩ }
    ∧ exec (.bl off10) s = .next { s with odeOut := ⟨2#3, .bl, .br, 1#2, ⟨.addr, (s.odeIn.nextPc + 2#16 * off10.setWidth 16) &&& 0x3FF#16⟩, unused, unused, false⟩ }

/-- exec of movImm and movt answers a next state in every state and for all operands: the dispatch engine's outputs are
the ones the rules give and nothing else in the state changes. Where a table, a field or a form is the spec's own
decision, it stands at its default (log entry 6).
(Derived: 44_move_immediate.md (R93, R94).) -/
def Obligations.ExecOfMoveImmediatesCompletes : Prop :=
  ∀ (s : State) (rd : RegIdx) (imm8 : BitVec 8),
    exec (.movImm rd imm8) s = .next { s with odeOut := ⟨3#3, .mov, .movi, 2#2, ⟨.reg, rd.setWidth 16⟩, ⟨.imm, imm8.setWidth 16⟩, unused, false⟩ }
    ∧ exec (.movt rd imm8) s = .next { s with odeOut := ⟨3#3, .movt, .movi, 2#2, ⟨.reg, rd.setWidth 16⟩, ⟨.imm, imm8.setWidth 16⟩, unused, false⟩ }

/-- exec of addReg, subReg, adc and sbc answers a next state in every state and for all operands: the dispatch engine's
outputs are the ones the rules give and nothing else in the state changes. Where a table, a field or a form is the
spec's own decision, it stands at its default (log entry 6).
(Derived: 45_arith_register.md (R96 to R99).) -/
def Obligations.ExecOfRegisterArithmeticCompletes : Prop :=
  ∀ (s : State) (rd rn rm : RegIdx),
    exec (.addReg rd rn rm) s = .next { s with odeOut := ⟨4#3, .add, .r3, 3#2, ⟨.reg, rd.setWidth 16⟩, ⟨.reg, rn.setWidth 16⟩, ⟨.reg, rm.setWidth 16⟩, false⟩ }
    ∧ exec (.subReg rd rn rm) s = .next { s with odeOut := ⟨4#3, .sub, .r3, 3#2, ⟨.reg, rd.setWidth 16⟩, ⟨.reg, rn.setWidth 16⟩, ⟨.reg, rm.setWidth 16⟩, false⟩ }
    ∧ exec (.adc rd rn rm) s = .next { s with odeOut := ⟨4#3, .adc, .r3, 3#2, ⟨.reg, rd.setWidth 16⟩, ⟨.reg, rn.setWidth 16⟩, ⟨.reg, rm.setWidth 16⟩, false⟩ }
    ∧ exec (.sbc rd rn rm) s = .next { s with odeOut := ⟨4#3, .sbc, .r3, 3#2, ⟨.reg, rd.setWidth 16⟩, ⟨.reg, rn.setWidth 16⟩, ⟨.reg, rm.setWidth 16⟩, false⟩ }

/-- exec of addImm, subImm and cmp answers a next state in every state and for all operands: the dispatch engine's outputs
are the ones the rules give and nothing else in the state changes. Where a table, a field or a form is the spec's own
decision, it stands at its default (log entry 6).
(Derived: 46_arith_imm_compare_hi.md section 1 (R101 to R103).) -/
def Obligations.ExecOfImmediateArithmeticAndCompareCompletes : Prop :=
  ∀ (s : State) (rd rn rm : RegIdx) (imm4 : BitVec 4),
    exec (.addImm rd rn imm4) s = .next { s with odeOut := ⟨5#3, .add, .ri4, 3#2, ⟨.reg, rd.setWidth 16⟩, ⟨.reg, rn.setWidth 16⟩, ⟨.imm, imm4.setWidth 16⟩, false⟩ }
    ∧ exec (.subImm rd rn imm4) s = .next { s with odeOut := ⟨5#3, .sub, .ri4, 3#2, ⟨.reg, rd.setWidth 16⟩, ⟨.reg, rn.setWidth 16⟩, ⟨.imm, imm4.setWidth 16⟩, false⟩ }
    ∧ exec (.cmp rn rm) s = .next { s with odeOut := ⟨5#3, .cmp, .cmp, 2#2, ⟨.reg, rn.setWidth 16⟩, ⟨.reg, rm.setWidth 16⟩, unused, false⟩ }

/-- exec of movReg, mvn, movs, msrCspr, msrSpsr, mrsCspr and mrsSpsr answers a next state in every state and for all
operands: the dispatch engine's outputs are the ones the rules give and nothing else in the state changes. Where a
table, a field or a form is the spec's own decision, it stands at its default (log entry 6).
(Derived: 46_arith_imm_compare_hi.md section 2 (R105 to R111).) -/
def Obligations.ExecOfHiRegisterGroupCompletes : Prop :=
  ∀ (s : State) (rd rm : RegIdx),
    exec (.movReg rd rm) s = .next { s with odeOut := ⟨5#3, .mov, .hi2, 2#2, ⟨.rega, rd.setWidth 16⟩, ⟨.rega, rm.setWidth 16⟩, unused, false⟩ }
    ∧ exec (.mvn rd rm) s = .next { s with odeOut := ⟨5#3, .mvn, .hi2, 2#2, ⟨.rega, rd.setWidth 16⟩, ⟨.rega, rm.setWidth 16⟩, unused, false⟩ }
    ∧ exec (.movs rd rm) s = .next { s with odeOut := ⟨5#3, .movs, .hi2, 2#2, ⟨.rega, rd.setWidth 16⟩, ⟨.rega, rm.setWidth 16⟩, unused, false⟩ }
    ∧ exec (.msrCspr rm) s = .next { s with odeOut := ⟨5#3, .msr, .msr, 2#2, ⟨.psr, 0#16⟩, ⟨.reg, rm.setWidth 16⟩, unused, false⟩ }
    ∧ exec (.msrSpsr rm) s = .next { s with odeOut := ⟨5#3, .msr, .msr, 2#2, ⟨.psr, 1#16⟩, ⟨.reg, rm.setWidth 16⟩, unused, false⟩ }
    ∧ exec (.mrsCspr rd) s = .next { s with odeOut := ⟨5#3, .mrs, .mrs, 2#2, ⟨.reg, rd.setWidth 16⟩, ⟨.psr, 0#16⟩, unused, false⟩ }
    ∧ exec (.mrsSpsr rd) s = .next { s with odeOut := ⟨5#3, .mrs, .mrs, 2#2, ⟨.reg, rd.setWidth 16⟩, ⟨.psr, 1#16⟩, unused, false⟩ }

/-- exec of andReg, orr, eor, lsl and lsr answers a next state in every state and for all operands: the dispatch engine's
outputs are the ones the rules give and nothing else in the state changes. Where a table, a field or a form is the
spec's own decision, it stands at its default (log entry 6).
(Derived: 47_logical_shift.md (R116 to R118, R121, R122).) -/
def Obligations.ExecOfLogicalAndShiftsCompletes : Prop :=
  ∀ (s : State) (rd rn rm : RegIdx) (shamt : BitVec 5),
    exec (.andReg rd rn rm) s = .next { s with odeOut := ⟨6#3, .and, .r3, 3#2, ⟨.reg, rd.setWidth 16⟩, ⟨.reg, rn.setWidth 16⟩, ⟨.reg, rm.setWidth 16⟩, false⟩ }
    ∧ exec (.orr rd rn rm) s = .next { s with odeOut := ⟨6#3, .orr, .r3, 3#2, ⟨.reg, rd.setWidth 16⟩, ⟨.reg, rn.setWidth 16⟩, ⟨.reg, rm.setWidth 16⟩, false⟩ }
    ∧ exec (.eor rd rn rm) s = .next { s with odeOut := ⟨6#3, .eor, .r3, 3#2, ⟨.reg, rd.setWidth 16⟩, ⟨.reg, rn.setWidth 16⟩, ⟨.reg, rm.setWidth 16⟩, false⟩ }
    ∧ exec (.lsl rd rn shamt) s = .next { s with odeOut := ⟨7#3, .lsl, .sh, 3#2, ⟨.reg, rd.setWidth 16⟩, ⟨.reg, rn.setWidth 16⟩, ⟨.imm, shamt.setWidth 16⟩, false⟩ }
    ∧ exec (.lsr rd rn shamt) s = .next { s with odeOut := ⟨7#3, .lsr, .sh, 3#2, ⟨.reg, rd.setWidth 16⟩, ⟨.reg, rn.setWidth 16⟩, ⟨.imm, shamt.setWidth 16⟩, false⟩ }

/-- exec of unknownX1 to unknownX8 answers a next state in every state and for all operands: the dispatch engine's outputs
are the ones the rules give and nothing else in the state changes. Where a table, a field or a form is the spec's own
decision, it stands at its default (log entry 6).
(Derived: 30_encoding.md section 7 (R38), 41_dispatch.md section 2 (R64).) -/
def Obligations.ExecOfUnknownPatternsCompletes : Prop :=
  ∀ (s : State),
    exec .unknownX1 s = .next { s with odeOut := ⟨0#3, .unknown, .none, 0#2, unused, unused, unused, true⟩ }
    ∧ exec .unknownX2 s = .next { s with odeOut := ⟨0#3, .unknown, .none, 0#2, unused, unused, unused, true⟩ }
    ∧ exec .unknownX3 s = .next { s with odeOut := ⟨0#3, .unknown, .none, 0#2, unused, unused, unused, true⟩ }
    ∧ exec .unknownX4 s = .next { s with odeOut := ⟨1#3, .unknown, .none, 0#2, unused, unused, unused, true⟩ }
    ∧ exec .unknownX5 s = .next { s with odeOut := ⟨1#3, .unknown, .none, 0#2, unused, unused, unused, true⟩ }
    ∧ exec .unknownX6 s = .next { s with odeOut := ⟨1#3, .unknown, .none, 0#2, unused, unused, unused, true⟩ }
    ∧ exec .unknownX7 s = .next { s with odeOut := ⟨5#3, .unknown, .none, 0#2, unused, unused, unused, true⟩ }
    ∧ exec .unknownX8 s = .next { s with odeOut := ⟨6#3, .unknown, .none, 0#2, unused, unused, unused, true⟩ }

/-- exec of GET answers a next state in every state: with legal positions the result is value / 2^lsp mod 2^(msp-lsp+1)
and no error is raised, with illegal ones bf_range_err is 1; bf_new plays no part and nothing but the unit's two
outputs changes; with the rule's worked example. (The equal formulation the rule marks as derived is
GetMasksFirstOrShiftsFirst; no property of the result is claimed on an error.)
(Stated: R52.) -/
def Obligations.GetExtractsTheNamedBits : Prop :=
  (∀ s : State, s.bfuIn.Legal →
    exec .bfGet s = .next { s with bfuOut :=
      ⟨BitVec.ofNat 32 (s.bfuIn.value.toNat / 2 ^ s.bfuIn.lsp.toNat % 2 ^ (s.bfuIn.msp.toNat - s.bfuIn.lsp.toNat + 1)), false⟩ })
  ∧ (∀ s : State, ¬ s.bfuIn.Legal → ∃ r, exec .bfGet s = .next { s with bfuOut := ⟨r, true⟩ })
  ∧ getBits 0x2AD555BC#32 6 3 = .ok 0x7#32

/-- For all legal positions GET is the value masked to its low msp + 1 bits and shifted right by lsp; at msp = 31 the mask
is all ones and GET is the plain shift.
(Derived: 40_bitfield.md section 3 (R52, its formulation marked derived; R53), 90_conflicts.md C7.) -/
def Obligations.GetMasksFirstOrShiftsFirst : Prop :=
  (∀ (v : Word32) (msp lsp : Nat), lsp ≤ msp → msp ≤ 31 →
    getBits v msp lsp = .ok ((v &&& mask (msp + 1)) >>> lsp))
  ∧ mask 32 = 0xFFFFFFFF#32
  ∧ (∀ (v : Word32) (lsp : Nat), lsp ≤ 31 → getBits v 31 lsp = .ok (v >>> lsp))
  ∧ (∀ v : Word32, getBits v 31 0 = .ok v)

/-- exec of SET answers a next state in every state: with legal positions bit i of the result is bit i - lsp of bf_new for
lsp <= i < msp and bit i of the value otherwise, and no error is raised; with illegal ones bf_range_err is 1; nothing
but the unit's two outputs changes. That bit msp is preserved is the spec's own decision D5 (log entry 6).
(Derived: 40_bitfield.md section 4 (R54), 92_eei_decisions.md D5, 92_eei_decisions.md D6.) -/
def Obligations.SetReplacesTheBitsBelowMsp : Prop :=
  (∀ s : State, s.bfuIn.Legal → ∃ r, exec .bfSet s = .next { s with bfuOut := ⟨r, false⟩ }
    ∧ ∀ i, i < 32 → r.getLsbD i
        = if s.bfuIn.lsp.toNat ≤ i ∧ i < s.bfuIn.msp.toNat then s.bfuIn.newValue.getLsbD (i - s.bfuIn.lsp.toNat) else s.bfuIn.value.getLsbD i)
  ∧ (∀ s : State, ¬ s.bfuIn.Legal → ∃ r, exec .bfSet s = .next { s with bfuOut := ⟨r, true⟩ })
  ∧ setBits 0x2AD555BC#32 11 8 2#32 = .ok 0x2AD552BC#32

/-- In every state in which the bit-field unit is evaluated, for either operation, the step answers a next state in which
bf_range_err is 1 exactly when msp < lsp or msp >= 32, whatever the value, the new value and the operation; nothing
but the unit's outputs changes. No property of bf_result is claimed on an error (D4, log entry 7); one flag for both
causes is the spec's own decision D32 (log entry 6).
(Derived: 40_bitfield.md section 2 (R51), 60_exceptions.md section 2 (R140, R141), 92_eei_decisions.md D4,
92_eei_decisions.md D32.) -/
def Obligations.RangeErrorDependsOnPositionsOnly : Prop :=
  ∀ s : State, s.select = .bfu → ∃ r,
    step s = .next { s with bfuOut := ⟨r, decide (s.bfuIn.msp.toNat < s.bfuIn.lsp.toNat ∨ 32 ≤ s.bfuIn.msp.toNat)⟩ }

/-- With msp = lsp nothing changes; bit msp is preserved; at (31, 0) bit 31 is kept and the rest replaced; for all legal
positions the bits of the new value above its low msp - lsp are dropped (with R55 (d)'s example); SET is idempotent;
the rejected reading (clear bit msp) differs exactly when bit msp of the value is 1. That SET keeps bit msp is the
spec's own decision D5 (log entry 6).
(Derived: 40_bitfield.md section 4 (R55, derived there), 90_conflicts.md C2, 92_eei_decisions.md D5,
92_eei_decisions.md D6.) -/
def Obligations.SetCornerCases : Prop :=
  (∀ (v x : Word32) (p : Nat), p ≤ 31 → setBits v p p x = .ok v)
  ∧ (∀ v x : Word32, setBits v 31 0 x = .ok ((v &&& 0x80000000#32) ||| (x &&& 0x7FFFFFFF#32)))
  ∧ (∀ (v x : Word32) (msp lsp : Nat), lsp ≤ msp → msp ≤ 31 →
      setBits v msp lsp x = setBits v msp lsp (x &&& mask (msp - lsp)))
  ∧ setBits 0#32 7 4 0xFF#32 = .ok 0x70#32
  ∧ (∀ (v x : Word32) (msp lsp : Nat), lsp ≤ msp → msp ≤ 31 →
      ∃ r, setBits v msp lsp x = .ok r ∧ r.getLsbD msp = v.getLsbD msp
        ∧ setBits r msp lsp x = .ok r
        ∧ (setBitsWith .clear v msp lsp x = .ok r ↔ v.getLsbD msp = false))

/-- For legal positions and r the result of SET: GET over (msp-1, lsp), where msp > lsp, gives the new value's low msp-lsp
bits; GET over (msp, lsp) gives them with the old bit msp on top, so the document's round trip holds exactly when that
bit is 0; every bit outside lsp to msp-1 is preserved. That SET keeps bit msp is the spec's own decision D5 (log entry
6).
(Derived: 40_bitfield.md section 5 (R56 a to d, derived there), 90_conflicts.md C3.) -/
def Obligations.GetReadsBackWhatSetWrote : Prop :=
  ∀ (v x : Word32) (msp lsp : Nat), lsp ≤ msp → msp ≤ 31 → ∃ r, setBits v msp lsp x = .ok r
    ∧ (lsp < msp → getBits r (msp - 1) lsp = .ok (x &&& mask (msp - lsp)))
    ∧ getBits r msp lsp
        = .ok ((x &&& mask (msp - lsp)) ||| ((if v.getLsbD msp then 1#32 else 0#32) <<< (msp - lsp)))
    ∧ (getBits r msp lsp = .ok (x &&& mask (msp - lsp)) ↔ v.getLsbD msp = false)
    ∧ (∀ i, i < lsp ∨ msp ≤ i → r.getLsbD i = v.getLsbD i)

/-- For legal positions GET's result is at most 2^(msp-lsp+1) - 1; and for lsp <= k < msp it is GET over (msp, k+1)
shifted left by k+1-lsp, or-ed with GET over (k, lsp).
(Derived: 40_bitfield.md section 5 (R56 e and f, derived there).) -/
def Obligations.GetIsBoundedAndSplits : Prop :=
  (∀ (v g : Word32) (msp lsp : Nat), getBits v msp lsp = .ok g → g.toNat ≤ 2 ^ (msp - lsp + 1) - 1)
  ∧ (∀ (v : Word32) (msp k lsp : Nat), lsp ≤ k → k < msp → msp ≤ 31 →
      ∃ g h l, getBits v msp lsp = .ok g ∧ getBits v msp (k + 1) = .ok h ∧ getBits v k lsp = .ok l
        ∧ g = (h <<< (k + 1 - lsp)) ||| l)

/-- With SET_TOP = CLEAR, which is not the spec's machine, GET over the same positions reads back exactly the new value's
low msp-lsp bits, for every value.
(Derived: 90_conflicts.md C3, 92_eei_decisions.md D5, 93_implementation_defined.md U7.) -/
def Obligations.ClearedTopMakesTheDocumentsRoundTripHold : Prop :=
  ∀ (v x : Word32) (msp lsp : Nat), lsp ≤ msp → msp ≤ 31 →
    ∃ r, setBitsWith .clear v msp lsp x = .ok r ∧ getBits r msp lsp = .ok (x &&& mask (msp - lsp))

/-- Whatever the OPEN tables, for every word and next_pc: the class is word[15:13], the operand kinds and their number
follow from the form, unused slots are (NONE, 0), unknown is 1 exactly for mnemonic UNKNOWN and form F_NONE; and with
a branch mask of at most 0x3FF every operand value is within its kind's bound. The kinds, the forms and the unknown
outcome are the spec's own decisions D22 and D27 (log entry 6).
(Derived: 41_dispatch.md (R62, R65, R68), 47_logical_shift.md section 2 (R123), 92_eei_decisions.md D22,
92_eei_decisions.md D27.) -/
def Obligations.OutputsAreShapedWhateverTheOpenTables : Prop :=
  ∀ (P : Params) (w pc : Word16),
    (odeWith P w pc).cls = w.extractLsb' 13 3 ∧ (odeWith P w pc).Shaped
    ∧ (P.branchMask.toNat ≤ 0x3FF → (odeWith P w pc).Bounded)

/-- Evaluating the dispatch engine with the same word and another next_pc gives the same outputs outside class 2; in class
2 it gives the same outputs but for the value of operand 0, and the same outputs altogether when bits 9 to 0 of
next_pc agree. That next_pc plays no part outside class 2 is the spec's own decision D37 (log entry 6).
(Derived: 41_dispatch.md section 2 (R66), 92_eei_decisions.md D37.) -/
def Obligations.NextPcMattersForTheBranchOperandOnly : Prop :=
  ∀ (s : State) (w pc pc' : Word16), ∃ t t',
    step { s with select := .ode, odeIn := ⟨w, pc⟩ } = .next t
    ∧ step { s with select := .ode, odeIn := ⟨w, pc'⟩ } = .next t'
    ∧ (w.extractLsb' 13 3 ≠ 2#3 → t.odeOut = t'.odeOut)
    ∧ (pc.extractLsb' 0 10 = pc'.extractLsb' 0 10 → t.odeOut = t'.odeOut)
    ∧ { t.odeOut with op0 := ⟨t.odeOut.op0.kind, 0#16⟩ } = { t'.odeOut with op0 := ⟨t'.odeOut.op0.kind, 0#16⟩ }

/-- For any two states that share only the inputs of a block, evaluating that block in each answers a next state, with the
same outputs of the block in both: nothing of an earlier evaluation, of the other block or of the environment enters;
and evaluating once more changes nothing.
(Stated: R10.) -/
def Obligations.OutputsAreAFunctionOfPresentInputs : Prop :=
  (∀ s s' : State, s.select = .ode → s'.select = .ode → s.odeIn = s'.odeIn →
    ∃ t t', step s = .next t ∧ step s' = .next t' ∧ t.odeOut = t'.odeOut ∧ step t = .next t)
  ∧ (∀ s s' : State, s.select = .bfu → s'.select = .bfu → s.bfuIn = s'.bfuIn →
    ∃ t t', step s = .next t ∧ step s' = .next t' ∧ t.bfuOut = t'.bfuOut ∧ step t = .next t)

/-- From any state, evaluating the dispatch engine and then the bit-field unit, or the two in the other order, ends in the
same state but for the model's own selection field (log entry 2); that a step drives the evaluated block's outputs
only is the model's choice (log entry 20).
(Derived: 70_reset_and_hazards.md section 3 (R158), 20_memory.md section 5 (R27), 92_eei_decisions.md D35.) -/
def Obligations.EvaluationsOfTheTwoBlocksCommute : Prop :=
  ∀ s : State, ∃ a b t, step { s with select := .ode } = .next a ∧ step { a with select := .bfu } = .next t
    ∧ step { s with select := .bfu } = .next b ∧ step { b with select := .ode } = .next { t with select := .ode }

/-- For every state in which the outputs of both blocks are the functions ode and bfu of their present inputs, whatever
the step does (an evaluation of either block, a presented word, a move of the environment), they are so again in the
next state. That one evaluation is one step follows the spec's own decision D30 (log entry 17), and that State holds
the ports is the model's choice (log entries 1, 20).
(Derived: 10_state.md (R10, R17), 70_reset_and_hazards.md section 3 (R155), 92_eei_decisions.md D30.) -/
def Obligations.EveryStepKeepsTheOutputsSettled : Prop :=
  ∀ s t : State, s.Settled → step s = .next t → t.Settled

/-- For every state whose listing lines each say what their own bytes decode to at their own address, every next state's
lines do so too: no line holds text of another word. The formats are the spec's own decisions (log entry 13).
(Derived: 49_rendering.md section 3 (R136, R137), 70_reset_and_hazards.md section 2 (R154).) -/
def Obligations.EveryStepKeepsTheListingFaithful : Prop :=
  ∀ s t : State, s.ListingFaithful → step s = .next t → t.ListingFaithful

/-- In State.reset both blocks' outputs are the function of their inputs (R17: from the first moment), the listing is
empty (hence faithful), no record is pending, no word is counted and the stream is not complete. The input values (log
entry 3), hence the outputs (log entry 4), and the empty environment (log entry 5) are the model's choice; the first
clause rests on no input value.
(Derived: 10_state.md section 7 (R17), 70_reset_and_hazards.md section 1 (R150), notes/assumptions/3.md,
notes/assumptions/4.md, notes/assumptions/5.md.) -/
def Obligations.ResetIsSettledWithAnEmptyListing : Prop :=
  State.reset.Settled ∧ State.reset.ListingFaithful
  ∧ State.reset.listing = [] ∧ State.reset.records = [] ∧ State.reset.wordIndex = 0
  ∧ State.reset.streamComplete = false

/-- A step gives no next state exactly when the environment is asked for a word, the stream is not complete, and the first
pending record breaks its length invariant, has a type other than data and end-of-data, or is a data record with an
odd byte count; no word and no bit-field operation ever stops it. Stopping there, the order in which the checks are
made, and going on with no record pending or after the end of the stream, are the model's choices (log entries 8, 9,
10, 11, 22).
(Derived: 20_memory.md section 2 (R21, R24), 41_dispatch.md section 1 (R61), 93_implementation_defined.md U9,
93_implementation_defined.md U10.) -/
def Obligations.StepStopsOnlyOnAnUnpresentableRecord : Prop :=
  ∀ s : State, (∀ t, step s ≠ .next t) ↔
    (s.select = .record ∧ s.streamComplete = false ∧ ∃ r rest, s.records = r :: rest ∧ r.Stops)

/-- A pending record that may not be presented stops the step with the name of the reason; the ODE is presented nothing of
it. The stops, and which name is given where two apply, are the model's choice (log entries 8, 9, 10, 22).
(Derived: 20_memory.md section 2 (R21, R24), 93_implementation_defined.md U9, 93_implementation_defined.md U10.) -/
def Obligations.UnpresentableRecordsStopByName : Prop :=
  ∀ (s : State) (r : HexRecord) (rest : List HexRecord), s.select = .record → s.streamComplete = false → s.records = r :: rest →
    (r.wf = true → r.recordType = 0#8 → r.payload.length % 2 = 1 → step s = .refused .oddByteCount)
    ∧ (r.wf = true → 2 ≤ r.recordType.toNat → r.recordType.toNat ≤ 5 → step s = .refused .unhandledRecordType)
    ∧ (r.wf = true → 6 ≤ r.recordType.toNat → step s = .refused .invalidRecordType)
    ∧ (r.wf = false → step s = .fault .recordLengthMismatch)

/-- With a presentable data record pending and both bytes of word k there, the step answers a next state in which the word
port holds byte 2k plus 256 times byte 2k+1, next_pc the record's address plus 2k+2 modulo 2^16, the outputs are the
engine's for them, the line of that word is added at the end of the listing, the word is counted, and nothing else
changes. The wrap modulo 2^16 is the spec's decision D34 (log entry 12).
(Derived: 20_memory.md section 2 (R22, R23), 49_rendering.md section 3 (R136), 92_eei_decisions.md D34.) -/
def Obligations.PresentedWordIsLittleEndianWithNextPcAfterIt : Prop :=
  ∀ (s : State) (r : HexRecord) (rest : List HexRecord) (lo hi : Byte),
    s.select = .record → s.streamComplete = false → s.records = r :: rest → r.Presentable →
    r.payload[2 * s.wordIndex]? = some lo → r.payload[2 * s.wordIndex + 1]? = some hi →
    ∃ w pc a, w.toNat = lo.toNat + 256 * hi.toNat
      ∧ pc.toNat = (r.address.toNat + 2 * s.wordIndex + 2) % 65536
      ∧ a.toNat = (r.address.toNat + 2 * s.wordIndex) % 65536
      ∧ step s = .next { s with odeIn := ⟨w, pc⟩, odeOut := ode w pc, wordIndex := s.wordIndex + 1,
                                listing := s.listing ++ [⟨a, lo, hi, (render (ode w pc)).1, (render (ode w pc)).2⟩] }

/-- With an end-of-data record pending the step only sets the completion signal; once it is set, and likewise while no
record is pending, a step that asks the environment for a word changes nothing. That an exhausted stream idles (log
entry 11), and that an end-of-data record ends the stream also where its byte count is odd (log entry 22), are the
model's choices.
(Derived: 20_memory.md section 2 (R21), 49_rendering.md section 3 (R137).) -/
def Obligations.EndOfDataEndsTheStreamWithoutALine : Prop :=
  (∀ (s : State) (r : HexRecord) (rest : List HexRecord), s.select = .record → s.streamComplete = false → s.records = r :: rest →
    r.wf = true → r.recordType = 1#8 → step s = .next { s with streamComplete := true })
  ∧ (∀ s : State, s.select = .record → s.streamComplete = true → step s = .next s)
  ∧ (∀ s : State, s.select = .record → s.records = [] → step s = .next s)

/-- From a state about to present a presentable data record from its first word, running n steps, for any n up to its
number of words, answers a next state in which exactly the lines of its first n words have been added to the listing,
in order; records, the bit-field unit and the signals are unchanged; one more step after the last word moves on to the
next record. That this takes a step of its own is the model's choice (log entry 19); the wrap of addresses is the
spec's decision D34 (log entry 12).
(Derived: 20_memory.md (R22, R23, R28), 49_rendering.md section 3 (R136, R137), 60_exceptions.md section 4 (R143),
92_eei_decisions.md D34, notes/assumptions/19.md.) -/
def Obligations.DataRecordIsListedWholeInWordOrder : Prop :=
  ∀ (s : State) (r : HexRecord) (rest : List HexRecord) (n : Nat),
    s.select = .record → s.streamComplete = false → s.records = r :: rest → s.wordIndex = 0 → r.Presentable →
    2 * n ≤ r.payload.length →
    ∃ t : State, Host.Core.run Sys2Proof.core n s = .next t ∧ t.listing = s.listing ++ r.lines n ∧ t.wordIndex = n
      ∧ t.records = s.records ∧ t.select = s.select ∧ t.streamComplete = s.streamComplete
      ∧ t.bfuIn = s.bfuIn ∧ t.bfuOut = s.bfuOut
      ∧ (2 * n = r.payload.length → step t = .next { t with records := rest, wordIndex := 0 })

/-- For a record whose words all lie at addresses up to 0xFFFF, its lines are in strictly ascending address order; where
it passes 0xFFFF the addresses wrap (D34, log entry 12) and no order is claimed.
(Derived: 20_memory.md section 5 (R28), 92_eei_decisions.md D34.) -/
def Obligations.RecordLinesAscendInAddress : Prop :=
  ∀ (r : HexRecord) (n : Nat), r.address.toNat + 2 * n ≤ 65536 →
    (r.lines n).Pairwise (fun a b => a.address.toNat < b.address.toNat)

/-- For every form, the rendered text of outputs emitted in it is the mnemonic text and the fragments joined as R132 says;
the unknown outcome renders as unknown with no operands. What each fragment is, FragmentsReadAsTheirKindsSay says, and
the mnemonic texts PortCodesAndTextsAreTheTables. The formats are the spec's own decisions (log entry 13).
(Derived: 49_rendering.md section 1 (R125, R132, R133), 92_eei_decisions.md D23, 92_eei_decisions.md D28.) -/
def Obligations.OperandTextOfEveryForm : Prop :=
  ∀ (c : BitVec 3) (m : Mnemonic) (x y z : Word16),
    render (unknownOutcome c) = ("unknown".toList, [])
    ∧ render (emit c m .memi x y z)
        = (mtext m, fragReg x ++ ", [".toList ++ fragReg y ++ ", ".toList ++ fragImm z ++ "]".toList)
    ∧ render (emit c m .memr x y z)
        = (mtext m, fragReg x ++ ", [".toList ++ fragReg y ++ ", ".toList ++ fragReg z ++ "]".toList)
    ∧ render (emit c m .br x y z) = (mtext m, hex4 x)
    ∧ render (emit c m .movi x y z) = (mtext m, fragReg x ++ ", ".toList ++ fragImm y)
    ∧ render (emit c m .r3 x y z) = (mtext m, fragReg x ++ ", ".toList ++ fragReg y ++ ", ".toList ++ fragReg z)
    ∧ render (emit c m .ri4 x y z) = (mtext m, fragReg x ++ ", ".toList ++ fragReg y ++ ", ".toList ++ fragImm z)
    ∧ render (emit c m .cmp x y z) = (mtext m, fragReg x ++ ", ".toList ++ fragReg y)
    ∧ render (emit c m .hi2 x y z) = (mtext m, fragRegAlias x ++ ", ".toList ++ fragRegAlias y)
    ∧ render (emit c m .msr x y z) = (mtext m, fragPsr x ++ ", ".toList ++ fragReg y)
    ∧ render (emit c m .mrs x y z) = (mtext m, fragReg x ++ ", ".toList ++ fragPsr y)
    ∧ render (emit c m .sh x y z) = (mtext m, fragReg x ++ ", ".toList ++ fragReg y ++ ", ".toList ++ fragImm z)

/-- For every class 2 word and next_pc the operand text is the four hexadecimal digits of the target; it has four
characters, all of 0 to 9 and A to F, its first is 0 and its second 0 to 3; and two targets with the same text are
equal. The digit case is the spec's decision D24 (log entry 13).
(Derived: 49_rendering.md section 1 (R130), 43_branch.md section 1 (R82), 92_eei_decisions.md D24.) -/
def Obligations.BranchTextIsFourHexDigitsOfTheTarget : Prop :=
  (∀ w pc : Word16, w.extractLsb' 13 3 = 2#3 → ∃ t : Word16,
    t.toNat = (pc.toNat + 2 * (slice w 9 0).toNat) % 1024 ∧ (render (ode w pc)).2 = hex4 t
    ∧ (hex4 t).head? = some '0' ∧ (hex4 t)[1]? ∈ [some '0', some '1', some '2', some '3'])
  ∧ (∀ v : Word16, (hex4 v).length = 4 ∧ ∀ c ∈ hex4 v, c ∈ "0123456789ABCDEF".toList)
  ∧ (∀ v v' : Word16, hex4 v = hex4 v' → v = v')

/-- For any two words and values of next_pc whose rendered mnemonic and operand text agree, the mnemonic, the form and the
three operands of the outputs agree. The formats are the spec's own decisions (log entry 13).
(Derived: 49_rendering.md section 1 (R134, derived there).) -/
def Obligations.RenderedTextDeterminesTheInstruction : Prop :=
  ∀ w pc w' pc' : Word16, render (ode w pc) = render (ode w' pc') →
    (ode w pc).mnem = (ode w' pc').mnem ∧ (ode w pc).form = (ode w' pc').form
    ∧ (ode w pc).op0 = (ode w' pc').op0 ∧ (ode w pc).op1 = (ode w' pc').op1 ∧ (ode w pc).op2 = (ode w' pc').op2

/-- For every word and next_pc the mnemonic text and the operand text are ASCII and end in neither a space nor a comma.
The separators are the spec's own decision D23 (log entry 13).
(Derived: 49_rendering.md section 1 (R134), 92_eei_decisions.md D23.) -/
def Obligations.RenderedTextIsCleanAscii : Prop :=
  ∀ w pc : Word16, cleanText (render (ode w pc)).1 = true ∧ cleanText (render (ode w pc)).2 = true

/-- A step that presents the bytes 0C 5C as word 5 of a record at 0x041A leaves word 0x5C0C and next_pc 0x0426 on the
ports and prints the line with address 0424, bytes 0C5C, bl and 003E, tabs between. The format of the line and the
branch table are the spec's own decisions (log entries 6 and 13).
(Derived: 49_rendering.md section 3 (R138, derived there), 95_test_vectors.md program P1.) -/
def Obligations.SampleRecordLineReadsAsTheSpecWorksItOut : Prop :=
  ∀ (s : State) (r : HexRecord) (rest : List HexRecord),
    s.select = .record → s.streamComplete = false → s.records = r :: rest → r.Presentable →
    r.address = 0x041A#16 → s.wordIndex = 5 → (r.payload.drop 10).take 2 = [0x0C#8, 0x5C#8] →
    ∃ t l, step s = .next t ∧ t.odeIn = ⟨0x5C0C#16, 0x0426#16⟩ ∧ t.listing = s.listing ++ [l]
      ∧ l.text = "0424 0C5C\tbl\t003E".toList

/-- For every register index the fragment is r and its decimal number without leading zero; as an alias operand it is pc
at 15, lr at 14, and the same as a plain register at every other index; for every immediate from 0 to 255 it is # and
the decimal number; every 16-bit value reads as exactly its four upper-case hexadecimal digits, and every byte as its
two; the status registers read cspr and spsr. The formats are the spec's own decisions (log entry 13).
(Derived: 49_rendering.md section 1 (R127 to R131), 92_eei_decisions.md D19, 92_eei_decisions.md D23,
92_eei_decisions.md D24, 92_eei_decisions.md D33.) -/
def Obligations.FragmentsReadAsTheirKindsSay : Prop :=
  (∀ r : RegIdx, ∃ d, fragReg (r.setWidth 16) = 'r' :: d ∧ isDecimal d r.toNat = true)
  ∧ (∀ r : RegIdx, fragRegAlias (r.setWidth 16)
      = if r.toNat = 15 then "pc".toList else if r.toNat = 14 then "lr".toList else fragReg (r.setWidth 16))
  ∧ (∀ n : BitVec 8, ∃ d, fragImm (n.setWidth 16) = '#' :: d ∧ isDecimal d n.toNat = true)
  ∧ (∀ v : Word16, hex4 v = hexDigits v.toNat [4096, 256, 16, 1])
  ∧ (∀ v : Byte, hex2 v = hexDigits v.toNat [16, 1])
  ∧ fragPsr 0#16 = "cspr".toList ∧ fragPsr 1#16 = "spsr".toList

/-- For every line the printed text is the four hexadecimal digits of its address, a space, the two digits of the low and
of the high byte in file order, a tab, the mnemonic, a tab, also where no operand follows, and the operands; and the
line of a word prints its own bytes and the rendering of its own outputs. Upper-case digits and the second tab are the
spec's own decisions D24 and D28 (log entry 13).
(Derived: 49_rendering.md section 3 (R136), 92_eei_decisions.md D24, 92_eei_decisions.md D28.) -/
def Obligations.PrintedLineIsAddressBytesMnemonicOperands : Prop :=
  (∀ l : DisassemblyLine, l.text
      = hexDigits l.address.toNat [4096, 256, 16, 1] ++ ' ' :: hexDigits l.rawLo.toNat [16, 1]
        ++ hexDigits l.rawHi.toNat [16, 1] ++ '\t' :: l.mnemonic ++ '\t' :: l.operands)
  ∧ (∀ (a : Word16) (lo hi : Byte) (out : OdeOut), (lineOf a lo hi out).text
      = hexDigits a.toNat [4096, 256, 16, 1] ++ ' ' :: hexDigits lo.toNat [16, 1]
        ++ hexDigits hi.toNat [16, 1] ++ '\t' :: (render out).1 ++ '\t' :: (render out).2)

/-- Every mnemonic, operand kind and form has exactly one row in the tables of R67 and R68; its code, its text, and for a
form the number and kinds of its operands, are that row's; and two names with the same code are the same name. The
numbers are the spec's own decisions D21 and D22 (log entries 6 and 21).
(Derived: 41_dispatch.md section 3 (R67, R68), 49_rendering.md section 1 (R126, R133), 92_eei_decisions.md D21,
92_eei_decisions.md D22.) -/
def Obligations.PortCodesAndTextsAreTheTables : Prop :=
  (∀ m : Mnemonic, ∃ t, mnemonicTable.filter (fun p => p.1 = m) = [(m, m.code.toNat, t)] ∧ mtext m = t.toList)
  ∧ (∀ k : Kind, kindTable.filter (fun p => p.1 = k) = [(k, k.code.toNat)])
  ∧ (∀ f : Form, formTable.filter (fun p => p.1 = f)
      = [(f, f.code.toNat, f.nops.toNat, f.kind0, f.kind1, f.kind2)])
  ∧ Function.Injective Mnemonic.code ∧ Function.Injective Kind.code ∧ Function.Injective Form.code

/-- In any two states with the same value, msp and lsp, exec of GET answers next states that differ from the states before
only in the unit's outputs, which are the same in both; so does SET where bf_new is the same too. Nothing else is
read: not an earlier output, so a failed operation leaves nothing behind; not the other block; for GET not bf_new.
(Stated: R58.) -/
def Obligations.GetAndSetReadOperandsAndWriteResultOnly : Prop :=
  (∀ s s' : State, s.bfuIn.value = s'.bfuIn.value → s.bfuIn.msp = s'.bfuIn.msp → s.bfuIn.lsp = s'.bfuIn.lsp →
    ∃ o, exec .bfGet s = .next { s with bfuOut := o } ∧ exec .bfGet s' = .next { s' with bfuOut := o })
  ∧ (∀ s s' : State, s.bfuIn.value = s'.bfuIn.value → s.bfuIn.msp = s'.bfuIn.msp → s.bfuIn.lsp = s'.bfuIn.lsp →
    s.bfuIn.newValue = s'.bfuIn.newValue →
    ∃ o, exec .bfSet s = .next { s with bfuOut := o } ∧ exec .bfSet s' = .next { s' with bfuOut := o })
end

