-- ==== Sys2Proof/Laws/BitField.lean ====
section
/-! SUPPORT. What the bit-field functions and the multiplexers do, said once. -/

namespace Sys2Proof.Machine

theorem rangeOk_iff (msp lsp : Nat) : rangeOk msp lsp = true ↔ lsp ≤ msp ∧ msp ≤ 31 := by
  rw [rangeOk, Config.posMax, Bool.and_eq_true, decide_eq_true_iff, decide_eq_true_iff]

/-- `mask(n)` has its low `n` bits set and no other. -/
theorem mask_getLsbD (n i : Nat) : (mask n).getLsbD i = (decide (i < 32) && decide (i < n)) := by
  simp [mask, BitVec.getLsbD_ofNat, Nat.testBit_two_pow_sub_one]

theorem getBits_ok {v : Word32} {msp lsp : Nat} (h : rangeOk msp lsp = true) :
    getBits v msp lsp = .ok ((v >>> lsp) &&& mask (msp - lsp + 1)) := by
  simp [getBits, h]

theorem getBits_error {v : Word32} {msp lsp : Nat} (h : rangeOk msp lsp = false) :
    getBits v msp lsp = .error .rangeError := by
  simp [getBits, h]

theorem setBitsWith_ok {top : SetTop} {v n : Word32} {msp lsp : Nat} (h : rangeOk msp lsp = true) :
    setBitsWith top v msp lsp n
      = .ok ((v &&& ~~~(clearedBits top msp lsp)) ||| ((n &&& mask (msp - lsp)) <<< lsp)) := by
  simp [setBitsWith, h]

theorem setBitsWith_error {top : SetTop} {v n : Word32} {msp lsp : Nat} (h : rangeOk msp lsp = false) :
    setBitsWith top v msp lsp n = .error .rangeError := by
  simp [setBitsWith, h]

/-- A field of the word is the word's bits at constant positions within it. -/
theorem field_getLsbD {n : Nat} {w : Word16} {hi lo : Nat} (h : lo ≤ hi) (h' : hi ≤ 15) (i : Nat) :
    (field n w hi lo).getLsbD i = (decide (i < n) && decide (i + lo ≤ hi) && w.getLsbD (lo + i)) := by
  have hr : rangeOk hi lo = true := (rangeOk_iff hi lo).2 ⟨h, by omega⟩
  by_cases hw : lo + i < 16
  · simp only [field, getBits_ok hr, BitVec.getLsbD_setWidth, BitVec.getLsbD_and, BitVec.getLsbD_ushiftRight,
      mask_getLsbD]
    have h3 : i < 32 := by omega
    have h4 : lo + i < 32 := by omega
    have h5 : (i ≤ hi - lo) ↔ (i + lo ≤ hi) := by omega
    by_cases h6 : i + lo ≤ hi <;> simp [h3, h4, h5, h6]
  · have : w.getLsbD (lo + i) = false := BitVec.getLsbD_of_ge _ _ (by omega)
    simp [field, getBits_ok hr, BitVec.getLsbD_setWidth, this]

@[simp] theorem mux2_zero {α : Type} (a0 a1 : α) : mux2 0#1 a0 a1 = a0 := rfl
@[simp] theorem mux2_one {α : Type} (a0 a1 : α) : mux2 1#1 a0 a1 = a1 := rfl
@[simp] theorem mux4_zero {α : Type} (a0 a1 a2 a3 : α) : mux4 0#2 a0 a1 a2 a3 = a0 := rfl
@[simp] theorem mux4_one {α : Type} (a0 a1 a2 a3 : α) : mux4 1#2 a0 a1 a2 a3 = a1 := rfl
@[simp] theorem mux4_two {α : Type} (a0 a1 a2 a3 : α) : mux4 2#2 a0 a1 a2 a3 = a2 := rfl
@[simp] theorem mux4_three {α : Type} (a0 a1 a2 a3 : α) : mux4 3#2 a0 a1 a2 a3 = a3 := rfl

section
variable {α : Type} (a0 a1 a2 a3 a4 a5 a6 a7 : α)

@[simp] theorem mux8_zero : mux8 0#3 a0 a1 a2 a3 a4 a5 a6 a7 = a0 := rfl
@[simp] theorem mux8_one : mux8 1#3 a0 a1 a2 a3 a4 a5 a6 a7 = a1 := rfl
@[simp] theorem mux8_two : mux8 2#3 a0 a1 a2 a3 a4 a5 a6 a7 = a2 := rfl
@[simp] theorem mux8_three : mux8 3#3 a0 a1 a2 a3 a4 a5 a6 a7 = a3 := rfl
@[simp] theorem mux8_four : mux8 4#3 a0 a1 a2 a3 a4 a5 a6 a7 = a4 := rfl
@[simp] theorem mux8_five : mux8 5#3 a0 a1 a2 a3 a4 a5 a6 a7 = a5 := rfl
@[simp] theorem mux8_six : mux8 6#3 a0 a1 a2 a3 a4 a5 a6 a7 = a6 := rfl
@[simp] theorem mux8_seven : mux8 7#3 a0 a1 a2 a3 a4 a5 a6 a7 = a7 := rfl
end

end Sys2Proof.Machine
end

