-- ==== Sys2Proof/Laws/Decode.lean ====
section
/-! SUPPORT. Each field of a word as the word's bits, and what a pattern says bit by bit. -/

namespace Sys2Proof

open Sys2Proof.Machine

/-- A field as wide as its positions say is the slice of the word. -/
theorem field_eq_extract {n : Nat} {w : Word16} {hi lo : Nat} (h : hi = lo + n - 1) (hn : 0 < n) (h' : hi ≤ 15) :
    field n w hi lo = w.extractLsb' lo n := by
  apply BitVec.eq_of_getLsbD_eq
  intro i hi'
  rw [field_getLsbD (by omega) h']
  have h2 : i + lo ≤ hi := by omega
  simp [hi', h2]

theorem fieldCls_eq (w : Word16) : fieldCls w = w.extractLsb' 13 3 := field_eq_extract rfl (by omega) (by omega)
theorem fieldSub3_eq (w : Word16) : fieldSub3 w = w.extractLsb' 10 3 := field_eq_extract rfl (by omega) (by omega)
theorem fieldSub2_eq (w : Word16) : fieldSub2 w = w.extractLsb' 11 2 := field_eq_extract rfl (by omega) (by omega)
theorem fieldSub1_eq (w : Word16) : fieldSub1 w = w.extractLsb' 12 1 := field_eq_extract rfl (by omega) (by omega)
theorem fieldFn3_eq (w : Word16) : fieldFn3 w = w.extractLsb' 4 3 := field_eq_extract rfl (by omega) (by omega)
theorem fieldRd_eq (w : Word16) : fieldRd w = w.extractLsb' 0 4 := field_eq_extract rfl (by omega) (by omega)
theorem fieldRm_eq (w : Word16) : fieldRm w = w.extractLsb' 7 4 := field_eq_extract rfl (by omega) (by omega)
theorem fieldImm3_eq (w : Word16) : fieldImm3 w = w.extractLsb' 7 3 := field_eq_extract rfl (by omega) (by omega)
theorem fieldImm4_eq (w : Word16) : fieldImm4 w = w.extractLsb' 7 4 := field_eq_extract rfl (by omega) (by omega)
theorem fieldImm8_eq (w : Word16) : fieldImm8 w = w.extractLsb' 4 8 := field_eq_extract rfl (by omega) (by omega)
theorem fieldOff10_eq (w : Word16) : fieldOff10 w = w.extractLsb' 0 10 := field_eq_extract rfl (by omega) (by omega)
theorem fieldShamt_eq (w : Word16) : fieldShamt w = w.extractLsb' 7 5 := field_eq_extract rfl (by omega) (by omega)

/-- `RN` has three bits: its register index is below 8. -/
theorem fieldRn_eq (w : Word16) : fieldRn w = (w.extractLsb' 4 3).setWidth 4 := by
  apply BitVec.eq_of_getLsbD_eq
  intro i hi
  rw [fieldRn, field_getLsbD (by omega) (by omega)]
  have h2 : decide (i + 4 ≤ 6) = decide (i < 3) := by rw [decide_eq_decide]; omega
  rw [h2, BitVec.getLsbD_setWidth, BitVec.getLsbD_extractLsb']
  cases decide (i < 3) <;> simp

theorem fitsRn_fieldRn (w : Word16) : fitsRn (fieldRn w) = true := by
  rw [fieldRn_eq]
  have := (w.extractLsb' 4 3).isLt
  simp only [fitsRn, decide_eq_true_eq, BitVec.toNat_setWidth]
  omega

/-! ### The selectors bit by bit, and each level of the dispatch tree as a choice on the word's bits -/

theorem fieldCls_bit (w : Word16) {i : Nat} (h : i < 3) : (fieldCls w).getLsbD i = w.getLsbD (13 + i) := by
  rw [fieldCls_eq]; simp [h]

theorem fieldSub3_bit (w : Word16) {i : Nat} (h : i < 3) : (fieldSub3 w).getLsbD i = w.getLsbD (10 + i) := by
  rw [fieldSub3_eq]; simp [h]

theorem fieldSub2_bit (w : Word16) {i : Nat} (h : i < 2) : (fieldSub2 w).getLsbD i = w.getLsbD (11 + i) := by
  rw [fieldSub2_eq]; simp [h]

theorem fieldSub1_bit (w : Word16) {i : Nat} (h : i < 1) : (fieldSub1 w).getLsbD i = w.getLsbD (12 + i) := by
  rw [fieldSub1_eq]; simp [h]

theorem fieldFn3_bit (w : Word16) {i : Nat} (h : i < 3) : (fieldFn3 w).getLsbD i = w.getLsbD (4 + i) := by
  rw [fieldFn3_eq]; simp [h]

theorem decodeWord_bits (w : Word16) : decodeWord w =
    bif w.getLsbD 15 then
      (bif w.getLsbD 14 then (bif w.getLsbD 13 then decodeShift w else decodeLogical w)
        else (bif w.getLsbD 13 then decodeArithImmCompareHi w else decodeArithRegister w))
    else
      (bif w.getLsbD 14 then (bif w.getLsbD 13 then decodeMoveImmediate w else decodeBranch w)
        else (bif w.getLsbD 13 then decodeStore w else decodeLoad w)) := by
  rw [decodeWord, mux8, fieldCls_bit w (by omega), fieldCls_bit w (by omega), fieldCls_bit w (by omega)]

theorem decodeLoad_bits (w : Word16) : decodeLoad w =
    bif w.getLsbD 12 then
      (bif w.getLsbD 11 then .unknownX3 else .ldrReg (fieldRd w) (fieldRn w) (fieldRm w))
    else (bif w.getLsbD 11 then .unknownX2
      else (bif w.getLsbD 10 then .unknownX1 else .ldrImm (fieldRd w) (fieldRn w) (fieldImm3 w))) := by
  rw [decodeLoad, mux8, fieldSub3_bit w (by omega), fieldSub3_bit w (by omega), fieldSub3_bit w (by omega)]
  cases w.getLsbD 10 <;> cases w.getLsbD 11 <;> cases w.getLsbD 12 <;> rfl

theorem decodeStore_bits (w : Word16) : decodeStore w =
    bif w.getLsbD 12 then
      (bif w.getLsbD 11 then .unknownX6 else .strReg (fieldRd w) (fieldRn w) (fieldRm w))
    else (bif w.getLsbD 11 then .unknownX5
      else (bif w.getLsbD 10 then .unknownX4 else .strImm (fieldRd w) (fieldRn w) (fieldImm3 w))) := by
  rw [decodeStore, mux8, fieldSub3_bit w (by omega), fieldSub3_bit w (by omega), fieldSub3_bit w (by omega)]
  cases w.getLsbD 10 <;> cases w.getLsbD 11 <;> cases w.getLsbD 12 <;> rfl

theorem decodeBranch_bits (w : Word16) : decodeBranch w =
    bif w.getLsbD 12 then
      (bif w.getLsbD 11 then (bif w.getLsbD 10 then .bl (fieldOff10 w) else .b (fieldOff10 w))
        else (bif w.getLsbD 10 then .blt (fieldOff10 w) else .bge (fieldOff10 w)))
    else
      (bif w.getLsbD 11 then (bif w.getLsbD 10 then .bcc (fieldOff10 w) else .bcs (fieldOff10 w))
        else (bif w.getLsbD 10 then .bzc (fieldOff10 w) else .bzs (fieldOff10 w))) := by
  rw [decodeBranch, mux8, fieldSub3_bit w (by omega), fieldSub3_bit w (by omega), fieldSub3_bit w (by omega)]

theorem decodeMoveImmediate_bits (w : Word16) : decodeMoveImmediate w =
    bif w.getLsbD 12 then .movt (fieldRd w) (fieldImm8 w) else .movImm (fieldRd w) (fieldImm8 w) := by
  rw [decodeMoveImmediate, mux2, fieldSub1_bit w (by omega)]

theorem decodeArithRegister_bits (w : Word16) : decodeArithRegister w =
    bif w.getLsbD 12 then
      (bif w.getLsbD 11 then .sbc (fieldRd w) (fieldRn w) (fieldRm w) else .adc (fieldRd w) (fieldRn w) (fieldRm w))
    else
      (bif w.getLsbD 11 then .subReg (fieldRd w) (fieldRn w) (fieldRm w)
        else .addReg (fieldRd w) (fieldRn w) (fieldRm w)) := by
  rw [decodeArithRegister, mux4, fieldSub2_bit w (by omega), fieldSub2_bit w (by omega)]

theorem decodeHi_bits (w : Word16) : decodeHi w =
    bif w.getLsbD 6 then
      (bif w.getLsbD 5 then (bif w.getLsbD 4 then .mrsSpsr (fieldRd w) else .mrsCspr (fieldRd w))
        else (bif w.getLsbD 4 then .msrSpsr (fieldRm w) else .msrCspr (fieldRm w)))
    else
      (bif w.getLsbD 5 then (bif w.getLsbD 4 then .unknownX7 else .movs (fieldRd w) (fieldRm w))
        else (bif w.getLsbD 4 then .mvn (fieldRd w) (fieldRm w) else .movReg (fieldRd w) (fieldRm w))) := by
  rw [decodeHi, mux8, fieldFn3_bit w (by omega), fieldFn3_bit w (by omega), fieldFn3_bit w (by omega)]

theorem decodeArithImmCompareHi_bits (w : Word16) : decodeArithImmCompareHi w =
    bif w.getLsbD 12 then (bif w.getLsbD 11 then .cmp (fieldRn w) (fieldRm w) else decodeHi w)
    else
      (bif w.getLsbD 11 then .subImm (fieldRd w) (fieldRn w) (fieldImm4 w)
        else .addImm (fieldRd w) (fieldRn w) (fieldImm4 w)) := by
  rw [decodeArithImmCompareHi, mux4, fieldSub2_bit w (by omega), fieldSub2_bit w (by omega)]

theorem decodeLogical_bits (w : Word16) : decodeLogical w =
    bif w.getLsbD 12 then (bif w.getLsbD 11 then .unknownX8 else .eor (fieldRd w) (fieldRn w) (fieldRm w))
    else
      (bif w.getLsbD 11 then .orr (fieldRd w) (fieldRn w) (fieldRm w)
        else .andReg (fieldRd w) (fieldRn w) (fieldRm w)) := by
  rw [decodeLogical, mux4, fieldSub2_bit w (by omega), fieldSub2_bit w (by omega)]

theorem decodeShift_bits (w : Word16) : decodeShift w =
    bif w.getLsbD 12 then .lsr (fieldRd w) (fieldRn w) (fieldShamt w)
    else .lsl (fieldRd w) (fieldRn w) (fieldShamt w) := by
  rw [decodeShift, mux2, fieldSub1_bit w (by omega)]

/-- A word in a row has the row's fixed bits. -/
theorem bit_of_row {w bits m : Word16} (h : w &&& m = bits) (k : Nat) (hk : m.getLsbD k = true) :
    w.getLsbD k = bits.getLsbD k := by
  rw [← h]; simp [hk]

end Sys2Proof
end

