-- ==== Sys2Proof/Laws/Operands.lean ====
section
/-! SUPPORT. Each operand value the meanings emit, as the slice of the word the rules name. -/

namespace Sys2Proof.Machine

theorem fieldVal_rd (w : Word16) : fieldVal (fieldRd w) = slice w 3 0 := by rw [fieldRd_eq]; rfl
theorem fieldVal_rm (w : Word16) : fieldVal (fieldRm w) = slice w 10 7 := by rw [fieldRm_eq]; rfl
theorem fieldVal_imm3 (w : Word16) : fieldVal (fieldImm3 w) = slice w 9 7 := by rw [fieldImm3_eq]; rfl
theorem fieldVal_imm4 (w : Word16) : fieldVal (fieldImm4 w) = slice w 10 7 := by rw [fieldImm4_eq]; rfl
theorem fieldVal_imm8 (w : Word16) : fieldVal (fieldImm8 w) = slice w 11 4 := by rw [fieldImm8_eq]; rfl
theorem fieldVal_shamt (w : Word16) : fieldVal (fieldShamt w) = slice w 11 7 := by rw [fieldShamt_eq]; rfl

theorem fieldVal_rn (w : Word16) : fieldVal (fieldRn w) = slice w 6 4 := by
  rw [fieldRn_eq]
  apply BitVec.eq_of_toNat_eq
  have h : (w.extractLsb' 4 3).toNat < 2 ^ 3 := (w.extractLsb' 4 3).isLt
  have e : slice w 6 4 = (w.extractLsb' 4 3).setWidth 16 := rfl
  rw [e]
  simp only [fieldVal, BitVec.toNat_setWidth]
  omega

theorem off10_toNat (w : Word16) : (fieldOff10 w).toNat = (slice w 9 0).toNat := by
  have h : (w.extractLsb' 0 10).toNat < 2 ^ 10 := (w.extractLsb' 0 10).isLt
  have e : slice w 9 0 = (w.extractLsb' 0 10).setWidth 16 := rfl
  rw [fieldOff10_eq, e]
  simp only [BitVec.toNat_setWidth]
  omega

/-- The branch target is the sum over the naturals, modulo 1024 (43_branch.md R82). -/
theorem branchTarget_toNat (pc : Word16) (off : BitVec 10) :
    (branchTarget pc off).toNat = (pc.toNat + 2 * off.toNat) % 1024 := by
  have h : (0x3FF#16).toNat = 2 ^ 10 - 1 := rfl
  rw [branchTarget, branchTargetWith, Config.branchMask, BitVec.toNat_and, h, Nat.and_two_pow_sub_one_eq_mod]
  simp only [BitVec.toNat_add, BitVec.toNat_mul, BitVec.toNat_setWidth, BitVec.toNat_ofNat]
  have := off.isLt
  omega

end Sys2Proof.Machine
end

