-- ==== Sys2Proof/Laws/State.lean ====
section
/-! SUPPORT. One lemma per field per update of State, so that no proof unfolds a record update. -/

namespace Sys2Proof.Machine

section
variable (s : State) (out : OdeOut) (r : Except RangeError Word32) (a : Word16) (lo hi : Byte) (l : DisassemblyLine)

@[simp] theorem State.driveOde_select : (s.driveOde out).select = s.select := rfl
@[simp] theorem State.driveOde_odeIn : (s.driveOde out).odeIn = s.odeIn := rfl
@[simp] theorem State.driveOde_odeOut : (s.driveOde out).odeOut = out := rfl
@[simp] theorem State.driveOde_bfuIn : (s.driveOde out).bfuIn = s.bfuIn := rfl
@[simp] theorem State.driveOde_bfuOut : (s.driveOde out).bfuOut = s.bfuOut := rfl
@[simp] theorem State.driveOde_records : (s.driveOde out).records = s.records := rfl
@[simp] theorem State.driveOde_wordIndex : (s.driveOde out).wordIndex = s.wordIndex := rfl
@[simp] theorem State.driveOde_listing : (s.driveOde out).listing = s.listing := rfl
@[simp] theorem State.driveOde_streamComplete : (s.driveOde out).streamComplete = s.streamComplete := rfl

@[simp] theorem State.driveBfu_select : (s.driveBfu r).select = s.select := rfl
@[simp] theorem State.driveBfu_odeIn : (s.driveBfu r).odeIn = s.odeIn := rfl
@[simp] theorem State.driveBfu_odeOut : (s.driveBfu r).odeOut = s.odeOut := rfl
@[simp] theorem State.driveBfu_bfuIn : (s.driveBfu r).bfuIn = s.bfuIn := rfl
@[simp] theorem State.driveBfu_bfuOut : (s.driveBfu r).bfuOut = bfuOutOf r := rfl
@[simp] theorem State.driveBfu_records : (s.driveBfu r).records = s.records := rfl
@[simp] theorem State.driveBfu_wordIndex : (s.driveBfu r).wordIndex = s.wordIndex := rfl
@[simp] theorem State.driveBfu_listing : (s.driveBfu r).listing = s.listing := rfl
@[simp] theorem State.driveBfu_streamComplete : (s.driveBfu r).streamComplete = s.streamComplete := rfl

@[simp] theorem State.presentWord_select : (s.presentWord a lo hi).select = s.select := rfl
@[simp] theorem State.presentWord_odeIn : (s.presentWord a lo hi).odeIn = ⟨assembleWord lo hi, nextPcAt a⟩ := rfl
@[simp] theorem State.presentWord_odeOut : (s.presentWord a lo hi).odeOut = s.odeOut := rfl
@[simp] theorem State.presentWord_bfuIn : (s.presentWord a lo hi).bfuIn = s.bfuIn := rfl
@[simp] theorem State.presentWord_bfuOut : (s.presentWord a lo hi).bfuOut = s.bfuOut := rfl
@[simp] theorem State.presentWord_records : (s.presentWord a lo hi).records = s.records := rfl
@[simp] theorem State.presentWord_wordIndex : (s.presentWord a lo hi).wordIndex = s.wordIndex + 1 := rfl
@[simp] theorem State.presentWord_listing : (s.presentWord a lo hi).listing = s.listing := rfl
@[simp] theorem State.presentWord_streamComplete : (s.presentWord a lo hi).streamComplete = s.streamComplete := rfl

@[simp] theorem State.printLine_select : (s.printLine l).select = s.select := rfl
@[simp] theorem State.printLine_odeIn : (s.printLine l).odeIn = s.odeIn := rfl
@[simp] theorem State.printLine_odeOut : (s.printLine l).odeOut = s.odeOut := rfl
@[simp] theorem State.printLine_bfuIn : (s.printLine l).bfuIn = s.bfuIn := rfl
@[simp] theorem State.printLine_bfuOut : (s.printLine l).bfuOut = s.bfuOut := rfl
@[simp] theorem State.printLine_records : (s.printLine l).records = s.records := rfl
@[simp] theorem State.printLine_wordIndex : (s.printLine l).wordIndex = s.wordIndex := rfl
@[simp] theorem State.printLine_listing : (s.printLine l).listing = s.listing ++ [l] := rfl
@[simp] theorem State.printLine_streamComplete : (s.printLine l).streamComplete = s.streamComplete := rfl

@[simp] theorem State.nextRecord_select : (s.nextRecord).select = s.select := rfl
@[simp] theorem State.nextRecord_odeIn : (s.nextRecord).odeIn = s.odeIn := rfl
@[simp] theorem State.nextRecord_odeOut : (s.nextRecord).odeOut = s.odeOut := rfl
@[simp] theorem State.nextRecord_bfuIn : (s.nextRecord).bfuIn = s.bfuIn := rfl
@[simp] theorem State.nextRecord_bfuOut : (s.nextRecord).bfuOut = s.bfuOut := rfl
@[simp] theorem State.nextRecord_records : (s.nextRecord).records = s.records.tail := rfl
@[simp] theorem State.nextRecord_wordIndex : (s.nextRecord).wordIndex = 0 := rfl
@[simp] theorem State.nextRecord_listing : (s.nextRecord).listing = s.listing := rfl
@[simp] theorem State.nextRecord_streamComplete : (s.nextRecord).streamComplete = s.streamComplete := rfl

@[simp] theorem State.endStream_select : (s.endStream).select = s.select := rfl
@[simp] theorem State.endStream_odeIn : (s.endStream).odeIn = s.odeIn := rfl
@[simp] theorem State.endStream_odeOut : (s.endStream).odeOut = s.odeOut := rfl
@[simp] theorem State.endStream_bfuIn : (s.endStream).bfuIn = s.bfuIn := rfl
@[simp] theorem State.endStream_bfuOut : (s.endStream).bfuOut = s.bfuOut := rfl
@[simp] theorem State.endStream_records : (s.endStream).records = s.records := rfl
@[simp] theorem State.endStream_wordIndex : (s.endStream).wordIndex = s.wordIndex := rfl
@[simp] theorem State.endStream_listing : (s.endStream).listing = s.listing := rfl
@[simp] theorem State.endStream_streamComplete : (s.endStream).streamComplete = true := rfl
end

end Sys2Proof.Machine
end

