-- ==== Sys2Proof/Laws/Ops.lean ====
section
/-! SUPPORT. What the shared operations, a meaning and the environment's presenter can do, said once. -/

namespace Sys2Proof.Machine

section
variable (c : BitVec 3) (m : Mnemonic) (f : Form) (x y z : Word16)

@[simp] theorem emit_cls : (emit c m f x y z).cls = c := rfl
@[simp] theorem emit_mnem : (emit c m f x y z).mnem = m := rfl
@[simp] theorem emit_form : (emit c m f x y z).form = f := rfl
@[simp] theorem emit_nops : (emit c m f x y z).nops = f.nops := rfl
@[simp] theorem emit_op0 : (emit c m f x y z).op0 = ⟨f.kind0, x⟩ := rfl
@[simp] theorem emit_op1 : (emit c m f x y z).op1 = ⟨f.kind1, y⟩ := rfl
@[simp] theorem emit_op2 : (emit c m f x y z).op2 = ⟨f.kind2, z⟩ := rfl
@[simp] theorem emit_unknown : (emit c m f x y z).unknown = decide (m = .unknown) := rfl
@[simp] theorem unknownOutcome_cls : (unknownOutcome c).cls = c := rfl
@[simp] theorem unknownOutcome_mnem : (unknownOutcome c).mnem = .unknown := rfl
@[simp] theorem unknownOutcome_form : (unknownOutcome c).form = .none := rfl
@[simp] theorem unknownOutcome_unknown : (unknownOutcome c).unknown = true := rfl
end

@[simp] theorem bfuOutOf_ok (v : Word32) : bfuOutOf (.ok v) = ⟨v, false⟩ := rfl
@[simp] theorem bfuOutOf_rangeErr_error (e : RangeError) : (bfuOutOf (.error e)).rangeErr = true := by cases e; rfl

/-- A meaning always answers a next state, and all it can do is drive the outputs of one of the two blocks. -/
theorem exec_cases (i : Instr) (s : State) :
    (∃ out, exec i s = .next (s.driveOde out)) ∨ (∃ r, exec i s = .next (s.driveBfu r)) := by
  cases i with
  | bfGet => exact .inr ⟨_, rfl⟩
  | bfSet => exact .inr ⟨_, rfl⟩
  | _ => exact .inl ⟨_, rfl⟩

/-- A word instruction drives the dispatch engine's outputs to a function of the instruction and of `next_pc` alone. -/
theorem exec_word_cases (i : Instr) (h : i.pattern.isSome = true) :
    ∃ out : Word16 → OdeOut, ∀ s, exec i s = .next (s.driveOde (out s.odeIn.nextPc)) := by
  cases i with
  | bfGet => simp [Instr.pattern] at h
  | bfSet => simp [Instr.pattern] at h
  | bzs off10 => exact ⟨fun pc => emit 2#3 .bzs .br (branchTarget pc off10) 0#16 0#16, fun _ => rfl⟩
  | bzc off10 => exact ⟨fun pc => emit 2#3 .bzc .br (branchTarget pc off10) 0#16 0#16, fun _ => rfl⟩
  | bcs off10 => exact ⟨fun pc => emit 2#3 .bcs .br (branchTarget pc off10) 0#16 0#16, fun _ => rfl⟩
  | bcc off10 => exact ⟨fun pc => emit 2#3 .bcc .br (branchTarget pc off10) 0#16 0#16, fun _ => rfl⟩
  | bge off10 => exact ⟨fun pc => emit 2#3 .bge .br (branchTarget pc off10) 0#16 0#16, fun _ => rfl⟩
  | blt off10 => exact ⟨fun pc => emit 2#3 .blt .br (branchTarget pc off10) 0#16 0#16, fun _ => rfl⟩
  | b off10 => exact ⟨fun pc => emit 2#3 .b .br (branchTarget pc off10) 0#16 0#16, fun _ => rfl⟩
  | bl off10 => exact ⟨fun pc => emit 2#3 .bl .br (branchTarget pc off10) 0#16 0#16, fun _ => rfl⟩
  | _ => exact ⟨fun _ => _, fun _ => rfl⟩

/-- When the presenter gives a word, the head of the pending records is a data record that has both of its bytes. -/
theorem presentation_word {s : State} {a : Word16} {lo hi : Byte} (h : s.presentation = .word a lo hi) :
    ∃ r rest, s.records = r :: rest ∧ s.streamComplete = false ∧ r.wf = true ∧ r.recordType = 0#8
      ∧ r.payload.length % 2 = 0 ∧ a = r.addressAt s.wordIndex ∧ r.bytesAt s.wordIndex = some (lo, hi) := by
  unfold State.presentation at h
  split at h
  · cases h
  · rename_i hc
    split at h
    · cases h
    · rename_i r rest hr
      unfold HexRecord.presentation at h
      split at h; · cases h
      rename_i h1
      split at h; · cases h
      split at h; · cases h
      split at h; · cases h
      rename_i h4
      split at h; · cases h
      rename_i h5
      split at h
      · rename_i lo' hi' hb
        cases h
        exact ⟨r, rest, hr, by simpa using hc, by simpa using h1, by simpa using h4, by omega, rfl, hb⟩
      · cases h

/-- The presenter keeps every pending record: a step drops the head or nothing. -/
theorem nextRecord_records_subset (s : State) : ∀ r ∈ s.nextRecord.records, r ∈ s.records :=
  fun _ h => List.mem_of_mem_tail h

end Sys2Proof.Machine
end

