-- ==== Sys2Proof/Laws/PerInstr.lean ====
section
/-! SUPPORT. Statements made for every instruction, one lemma per constructor of Instr. EncodingFitsRow: the word an instruction encodes to
lies in its own row of the opcode map (30_encoding.md section 6). -/

namespace Sys2Proof.Laws.EncodingFitsRow

/-- The code of a well-formed word instruction lies in its row; a bit-field operation has no row and no word. -/
def Statement (i : Instr) : Prop :=
  i.wf = true →
    match i.pattern, encode i with
    | some p, .word w => w &&& p.mask = p.bits
    | none, .bfOp _ => True
    | _, _ => False

/-- A field placed where a row has no fixed bit leaves the row's bits alone. -/
theorem place_and_mask {n : Nat} (v : BitVec n) (lo : Nat) (m : Word16)
    (h : ∀ i, i < n → m.getLsbD (lo + i) = false) : place v lo &&& m = 0#16 := by
  apply BitVec.eq_of_getLsbD_eq
  intro j hj
  simp only [place, BitVec.getLsbD_and, BitVec.getLsbD_shiftLeft, BitVec.getLsbD_setWidth, BitVec.getLsbD_zero]
  by_cases h1 : j < lo
  · simp [h1]
  · by_cases h2 : j - lo < n
    · have := h (j - lo) h2
      rw [show lo + (j - lo) = j by omega] at this
      simp [this]
    · rw [BitVec.getLsbD_of_ge v (j - lo) (by omega)]
      simp

/-- A register that fits the field `RN` takes three bits. -/
theorem place_rn {rn : RegIdx} (h : fitsRn rn = true) : place rn 4 = place (rn.setWidth 3) 4 := by
  revert h
  revert rn
  decide

theorem fits3 {n : Nat} {bits m : Word16} {rd rn : RegIdx} {x : BitVec n} (hrn : fitsRn rn = true)
    (hb : bits &&& m = bits) (hx : ∀ i, i < n → m.getLsbD (7 + i) = false)
    (hn : ∀ i, i < 3 → m.getLsbD (4 + i) = false) (hd : ∀ i, i < 4 → m.getLsbD (0 + i) = false) :
    encode3 bits rd rn x &&& m = bits := by
  rw [encode3, place_rn hrn, BitVec.and_comm, BitVec.and_or_distrib_left, BitVec.and_or_distrib_left,
    BitVec.and_or_distrib_left, BitVec.and_comm m bits, BitVec.and_comm m, BitVec.and_comm m, BitVec.and_comm m,
    place_and_mask x 7 m hx, place_and_mask (rn.setWidth 3) 4 m hn, place_and_mask rd 0 m hd, hb]
  simp

theorem fits2 {n k : Nat} {bits m : Word16} {x : BitVec n} {y : BitVec k} {a c : Nat} (hb : bits &&& m = bits)
    (hx : ∀ i, i < n → m.getLsbD (a + i) = false) (hy : ∀ i, i < k → m.getLsbD (c + i) = false) :
    (bits ||| place x a ||| place y c) &&& m = bits := by
  rw [BitVec.and_comm, BitVec.and_or_distrib_left, BitVec.and_or_distrib_left, BitVec.and_comm m bits,
    BitVec.and_comm m, BitVec.and_comm m, place_and_mask x a m hx, place_and_mask y c m hy, hb]
  simp

theorem fits1 {n : Nat} {bits m : Word16} {x : BitVec n} {a : Nat} (hb : bits &&& m = bits)
    (hx : ∀ i, i < n → m.getLsbD (a + i) = false) : (bits ||| place x a) &&& m = bits := by
  rw [BitVec.and_comm, BitVec.and_or_distrib_left, BitVec.and_comm m bits, BitVec.and_comm m,
    place_and_mask x a m hx, hb]
  simp

theorem ldrImm (rd rn : RegIdx) (imm3 : BitVec 3) : Statement (.ldrImm rd rn imm3) :=
  fun h => fits3 h (by decide) (by decide) (by decide) (by decide)

theorem ldrReg (rd rn rm : RegIdx) : Statement (.ldrReg rd rn rm) :=
  fun h => fits3 h (by decide) (by decide) (by decide) (by decide)

theorem strImm (rd rn : RegIdx) (imm3 : BitVec 3) : Statement (.strImm rd rn imm3) :=
  fun h => fits3 h (by decide) (by decide) (by decide) (by decide)

theorem strReg (rd rn rm : RegIdx) : Statement (.strReg rd rn rm) :=
  fun h => fits3 h (by decide) (by decide) (by decide) (by decide)

theorem bzs (off10 : BitVec 10) : Statement (.bzs off10) :=
  fun _ => fits1 (by decide) (by decide)

theorem bzc (off10 : BitVec 10) : Statement (.bzc off10) :=
  fun _ => fits1 (by decide) (by decide)

theorem bcs (off10 : BitVec 10) : Statement (.bcs off10) :=
  fun _ => fits1 (by decide) (by decide)

theorem bcc (off10 : BitVec 10) : Statement (.bcc off10) :=
  fun _ => fits1 (by decide) (by decide)

theorem bge (off10 : BitVec 10) : Statement (.bge off10) :=
  fun _ => fits1 (by decide) (by decide)

theorem blt (off10 : BitVec 10) : Statement (.blt off10) :=
  fun _ => fits1 (by decide) (by decide)

theorem b (off10 : BitVec 10) : Statement (.b off10) :=
  fun _ => fits1 (by decide) (by decide)

theorem bl (off10 : BitVec 10) : Statement (.bl off10) :=
  fun _ => fits1 (by decide) (by decide)

theorem movImm (rd : RegIdx) (imm8 : BitVec 8) : Statement (.movImm rd imm8) :=
  fun _ => fits2 (by decide) (by decide) (by decide)

theorem movt (rd : RegIdx) (imm8 : BitVec 8) : Statement (.movt rd imm8) :=
  fun _ => fits2 (by decide) (by decide) (by decide)

theorem addReg (rd rn rm : RegIdx) : Statement (.addReg rd rn rm) :=
  fun h => fits3 h (by decide) (by decide) (by decide) (by decide)

theorem subReg (rd rn rm : RegIdx) : Statement (.subReg rd rn rm) :=
  fun h => fits3 h (by decide) (by decide) (by decide) (by decide)

theorem adc (rd rn rm : RegIdx) : Statement (.adc rd rn rm) :=
  fun h => fits3 h (by decide) (by decide) (by decide) (by decide)

theorem sbc (rd rn rm : RegIdx) : Statement (.sbc rd rn rm) :=
  fun h => fits3 h (by decide) (by decide) (by decide) (by decide)

theorem addImm (rd rn : RegIdx) (imm4 : BitVec 4) : Statement (.addImm rd rn imm4) :=
  fun h => fits3 h (by decide) (by decide) (by decide) (by decide)

theorem subImm (rd rn : RegIdx) (imm4 : BitVec 4) : Statement (.subImm rd rn imm4) :=
  fun h => fits3 h (by decide) (by decide) (by decide) (by decide)

theorem movReg (rd rm : RegIdx) : Statement (.movReg rd rm) :=
  fun _ => fits2 (by decide) (by decide) (by decide)

theorem mvn (rd rm : RegIdx) : Statement (.mvn rd rm) :=
  fun _ => fits2 (by decide) (by decide) (by decide)

theorem movs (rd rm : RegIdx) : Statement (.movs rd rm) :=
  fun _ => fits2 (by decide) (by decide) (by decide)

theorem msrCspr (rm : RegIdx) : Statement (.msrCspr rm) :=
  fun _ => fits1 (by decide) (by decide)

theorem msrSpsr (rm : RegIdx) : Statement (.msrSpsr rm) :=
  fun _ => fits1 (by decide) (by decide)

theorem mrsCspr (rd : RegIdx) : Statement (.mrsCspr rd) :=
  fun _ => fits1 (by decide) (by decide)

theorem mrsSpsr (rd : RegIdx) : Statement (.mrsSpsr rd) :=
  fun _ => fits1 (by decide) (by decide)

theorem cmp (rn rm : RegIdx) : Statement (.cmp rn rm) := by
  intro h
  show (0xB800#16 ||| place rm 7 ||| place rn 4) &&& 0xF800#16 = 0xB800#16
  rw [place_rn h]
  exact fits2 (by decide) (by decide) (by decide)

theorem andReg (rd rn rm : RegIdx) : Statement (.andReg rd rn rm) :=
  fun h => fits3 h (by decide) (by decide) (by decide) (by decide)

theorem orr (rd rn rm : RegIdx) : Statement (.orr rd rn rm) :=
  fun h => fits3 h (by decide) (by decide) (by decide) (by decide)

theorem eor (rd rn rm : RegIdx) : Statement (.eor rd rn rm) :=
  fun h => fits3 h (by decide) (by decide) (by decide) (by decide)

theorem lsl (rd rn : RegIdx) (shamt : BitVec 5) : Statement (.lsl rd rn shamt) :=
  fun h => fits3 h (by decide) (by decide) (by decide) (by decide)

theorem lsr (rd rn : RegIdx) (shamt : BitVec 5) : Statement (.lsr rd rn shamt) :=
  fun h => fits3 h (by decide) (by decide) (by decide) (by decide)

theorem unknownX1 : Statement (.unknownX1) :=
  fun _ => rfl

theorem unknownX2 : Statement (.unknownX2) :=
  fun _ => rfl

theorem unknownX3 : Statement (.unknownX3) :=
  fun _ => rfl

theorem unknownX4 : Statement (.unknownX4) :=
  fun _ => rfl

theorem unknownX5 : Statement (.unknownX5) :=
  fun _ => rfl

theorem unknownX6 : Statement (.unknownX6) :=
  fun _ => rfl

theorem unknownX7 : Statement (.unknownX7) :=
  fun _ => rfl

theorem unknownX8 : Statement (.unknownX8) :=
  fun _ => rfl

theorem bfGet : Statement (.bfGet) :=
  fun _ => trivial

theorem bfSet : Statement (.bfSet) :=
  fun _ => trivial

end Sys2Proof.Laws.EncodingFitsRow
end

