-- ==== Sys2Proof/Tests/Slice0.lean ====
section
/-! SUPPORT. The model's own tests. Expected values are the spec's (95_test_vectors.md, the worked examples of the rules) or words
written out field by field from 30_encoding.md R31 and R32; and for each statement of Obligations.lean that has hypotheses, a
`witness_` theorem with concrete values that meet them, clause by clause, at boundary values. -/

namespace Sys2Proof.Tests

open Sys2Proof Sys2Proof.Machine

/-! ### Well-formedness: an ill-formed term for each check, and the boundary that passes -/

theorem test_wf_refuses_base_r8_loads_and_stores :
    ([.ldrImm 0#4 8#4 0#3, .ldrReg 0#4 8#4 0#4, .strImm 0#4 8#4 0#3, .strReg 0#4 8#4 0#4] : List Instr).all
      (fun i => !i.wf) = true := by decide

theorem test_wf_refuses_base_r8_arithmetic :
    ([.addReg 0#4 8#4 0#4, .subReg 0#4 9#4 0#4, .adc 0#4 15#4 0#4, .sbc 0#4 8#4 0#4, .addImm 0#4 8#4 0#4,
      .subImm 0#4 8#4 0#4, .cmp 8#4 0#4] : List Instr).all (fun i => !i.wf) = true := by decide

theorem test_wf_refuses_base_r8_logical_and_shift :
    ([.andReg 0#4 8#4 0#4, .orr 0#4 8#4 0#4, .eor 0#4 8#4 0#4, .lsl 0#4 8#4 0#5, .lsr 0#4 8#4 0#5] : List Instr).all
      (fun i => !i.wf) = true := by decide

theorem witness_EncodeThenDecodeGivesTheInstructionBack :
    ([.ldrImm 15#4 7#4 7#3, .strReg 15#4 7#4 15#4, .bl 1023#10, .movt 15#4 255#8, .sbc 15#4 7#4 15#4,
      .cmp 7#4 15#4, .mrsSpsr 15#4, .eor 15#4 7#4 15#4, .lsr 15#4 7#4 31#5, .unknownX8, .bfSet] : List Instr).all
      (fun i => i.wf) = true := by decide

/-! ### Decoding: every constructor from a word written out field by field -/

/-- R71. -/
theorem test_decode_ldrImm : decodeWord 0b0000001100111010#16 = .ldrImm 10#4 3#4 6#3 := by decide
/-- R72, bit 10 set. -/
theorem test_decode_ldrReg : decodeWord 0b0001011010111010#16 = .ldrReg 10#4 3#4 13#4 := by decide
/-- R72, bit 10 clear. -/
theorem test_decode_ldrReg_2 : decodeWord 0b0001001010111010#16 = .ldrReg 10#4 3#4 5#4 := by decide
/-- R73. -/
theorem test_decode_strImm : decodeWord 0b0010001100111010#16 = .strImm 10#4 3#4 6#3 := by decide
/-- R74. -/
theorem test_decode_strReg : decodeWord 0b0011011010111010#16 = .strReg 10#4 3#4 13#4 := by decide
/-- R74. -/
theorem test_decode_strReg_2 : decodeWord 0b0011001010111010#16 = .strReg 10#4 3#4 5#4 := by decide
/-- R84. -/
theorem test_decode_bzs : decodeWord 0b0100001011001101#16 = .bzs 717#10 := by decide
/-- R85. -/
theorem test_decode_bzc : decodeWord 0b0100011011001101#16 = .bzc 717#10 := by decide
/-- R86. -/
theorem test_decode_bcs : decodeWord 0b0100101011001101#16 = .bcs 717#10 := by decide
/-- R87. -/
theorem test_decode_bcc : decodeWord 0b0100111011001101#16 = .bcc 717#10 := by decide
/-- R88. -/
theorem test_decode_bge : decodeWord 0b0101001011001101#16 = .bge 717#10 := by decide
/-- R89. -/
theorem test_decode_blt : decodeWord 0b0101011011001101#16 = .blt 717#10 := by decide
/-- R90. -/
theorem test_decode_b : decodeWord 0b0101101011001101#16 = .b 717#10 := by decide
/-- R91. -/
theorem test_decode_bl : decodeWord 0b0101111011001101#16 = .bl 717#10 := by decide
/-- R93. -/
theorem test_decode_movImm : decodeWord 0b0110101100111010#16 = .movImm 10#4 179#8 := by decide
/-- R94. -/
theorem test_decode_movt : decodeWord 0b0111101100111010#16 = .movt 10#4 179#8 := by decide
/-- R96. -/
theorem test_decode_addReg : decodeWord 0b1000011010111010#16 = .addReg 10#4 3#4 13#4 := by decide
/-- R97. -/
theorem test_decode_subReg : decodeWord 0b1000111010111010#16 = .subReg 10#4 3#4 13#4 := by decide
/-- R98. -/
theorem test_decode_adc : decodeWord 0b1001011010111010#16 = .adc 10#4 3#4 13#4 := by decide
/-- R99. -/
theorem test_decode_sbc : decodeWord 0b1001111010111010#16 = .sbc 10#4 3#4 13#4 := by decide
/-- R101. -/
theorem test_decode_addImm : decodeWord 0b1010011010111010#16 = .addImm 10#4 3#4 13#4 := by decide
/-- R102. -/
theorem test_decode_subImm : decodeWord 0b1010111010111010#16 = .subImm 10#4 3#4 13#4 := by decide
/-- R105. -/
theorem test_decode_movReg : decodeWord 0b1011011010001010#16 = .movReg 10#4 13#4 := by decide
/-- R106. -/
theorem test_decode_mvn : decodeWord 0b1011011010011010#16 = .mvn 10#4 13#4 := by decide
/-- R107. -/
theorem test_decode_movs : decodeWord 0b1011011010101010#16 = .movs 10#4 13#4 := by decide
/-- R108, bits 3:0 ignored. -/
theorem test_decode_msrCspr : decodeWord 0b1011011011001010#16 = .msrCspr 13#4 := by decide
/-- R109. -/
theorem test_decode_msrSpsr : decodeWord 0b1011011011011010#16 = .msrSpsr 13#4 := by decide
/-- R110, bits 10:7 ignored. -/
theorem test_decode_mrsCspr : decodeWord 0b1011011011101010#16 = .mrsCspr 10#4 := by decide
/-- R111. -/
theorem test_decode_mrsSpsr : decodeWord 0b1011011011111010#16 = .mrsSpsr 10#4 := by decide
/-- R103. -/
theorem test_decode_cmp : decodeWord 0b1011111010111010#16 = .cmp 3#4 13#4 := by decide
/-- R116. -/
theorem test_decode_andReg : decodeWord 0b1100011010111010#16 = .andReg 10#4 3#4 13#4 := by decide
/-- R117. -/
theorem test_decode_orr : decodeWord 0b1100111010111010#16 = .orr 10#4 3#4 13#4 := by decide
/-- R118. -/
theorem test_decode_eor : decodeWord 0b1101011010111010#16 = .eor 10#4 3#4 13#4 := by decide
/-- R121. -/
theorem test_decode_lsl : decodeWord 0b1110110010111010#16 = .lsl 10#4 3#4 25#5 := by decide
/-- R122. -/
theorem test_decode_lsr : decodeWord 0b1111110010111010#16 = .lsr 10#4 3#4 25#5 := by decide
/-- R75. -/
theorem test_decode_unknownX1 : decodeWord 0b0000011100111010#16 = .unknownX1 := by decide
/-- R75. -/
theorem test_decode_unknownX2 : decodeWord 0b0000111010111010#16 = .unknownX2 := by decide
/-- R75. -/
theorem test_decode_unknownX3 : decodeWord 0b0001111010111010#16 = .unknownX3 := by decide
/-- R75. -/
theorem test_decode_unknownX4 : decodeWord 0b0010011100111010#16 = .unknownX4 := by decide
/-- R75. -/
theorem test_decode_unknownX5 : decodeWord 0b0010111010111010#16 = .unknownX5 := by decide
/-- R75. -/
theorem test_decode_unknownX6 : decodeWord 0b0011111010111010#16 = .unknownX6 := by decide
/-- R112. -/
theorem test_decode_unknownX7 : decodeWord 0b1011011010111010#16 = .unknownX7 := by decide
/-- R119. -/
theorem test_decode_unknownX8 : decodeWord 0b1101111010111010#16 = .unknownX8 := by decide
/-- R50. -/
theorem test_decode_bfGet : decodeBfOp 0#1 = .bfGet := by decide
/-- R50. -/
theorem test_decode_bfSet : decodeBfOp 1#1 = .bfSet := by decide

/-- R22: the low byte comes first, and the bytes after the word are left. -/
theorem test_decodeBytes_little_endian :
    decodeBytes [0x0C#8, 0x5C#8, 0x91#8] = .ok (.bl 12#10, [0x91#8]) := by rfl

/-- R24: no word is made of one byte. -/
theorem test_decodeBytes_rejects : decodeBytes [0x0C#8] = .error .halfWord ∧ decodeBytes [] = .error .noBytes := ⟨rfl, rfl⟩

/-- The table's numbering: 16 bits are a word, 8 bits hold bf_op in bit 0, and no row has another width. -/
theorem test_decodeTableWord :
    decodeTableWord 16 0xB150 = some (.msrSpsr 2#4) ∧ decodeTableWord 8 1 = some .bfSet
    ∧ decodeTableWord 8 0 = some .bfGet ∧ decodeTableWord 32 0 = none := by decide

/-- The encoder on the word of 95_test_vectors.md program P5. -/
theorem test_encode_add_immediate : encode (.addImm 2#4 3#4 3#4) = .word 0xA1B2#16 := by decide

/-! ### The bit-field unit: 95_test_vectors.md 2.1, 2.2, 2.3 -/

/-- One row of table 2.1. -/
def getGives (v : Word32) (msp lsp : Nat) (r : Word32) : Bool :=
  match getBits v msp lsp with
  | .ok x => decide (x = r)
  | .error _ => false

/-- One row of table 2.2, its columns "spec" and "if CLEAR". -/
def setGives (v : Word32) (msp lsp : Nat) (x spec clear : Word32) : Bool :=
  match setBits v msp lsp x, setBitsWith .clear v msp lsp x with
  | .ok a, .ok b => decide (a = spec) && decide (b = clear)
  | _, _ => false

theorem test_get_table :
    (getGives 0x2AD555BC#32 6 3 0x7#32 && getGives 0x2AD555BC#32 7 4 0xB#32
    && getGives 0x2AD555BC#32 31 0 0x2AD555BC#32 && getGives 0x2AD555BC#32 31 28 0x2#32
    && getGives 0x2AD555BC#32 2 2 0x1#32 && getGives 0xFFFFFFFF#32 31 0 0xFFFFFFFF#32
    && getGives 0xFFFFFFFF#32 31 1 0x7FFFFFFF#32 && getGives 0x80000000#32 31 31 0x1#32
    && getGives 0x80000000#32 30 0 0x0#32 && getGives 0x12345678#32 19 12 0x45#32
    && getGives 0x0000A1B2#32 15 13 0x5#32 && getGives 0x0000A1B2#32 10 7 0x3#32) = true := by decide

theorem test_set_table :
    (setGives 0x2AD555BC#32 11 8 0x2#32 0x2AD552BC#32 0x2AD552BC#32
    && setGives 0xFFFFFFFF#32 11 8 0x2#32 0xFFFFFAFF#32 0xFFFFF2FF#32
    && setGives 0x00000000#32 7 4 0xFF#32 0x00000070#32 0x00000070#32
    && setGives 0x12345678#32 5 5 0xFFFFFFFF#32 0x12345678#32 0x12345658#32
    && setGives 0x00000000#32 31 0 0xFFFFFFFF#32 0x7FFFFFFF#32 0x7FFFFFFF#32
    && setGives 0xFFFFFFFF#32 31 0 0x0#32 0x80000000#32 0x00000000#32
    && setGives 0x80000000#32 31 0 0x12345678#32 0x92345678#32 0x12345678#32
    && setGives 0xFFFFFFFF#32 1 0 0x0#32 0xFFFFFFFE#32 0xFFFFFFFC#32
    && setGives 0x2AD555BC#32 31 31 0x1#32 0x2AD555BC#32 0x2AD555BC#32
    && setGives 0x0000FFFF#32 16 13 0x5#32 0x0000BFFF#32 0x0000BFFF#32) = true := by decide

/-- Table 2.3: legal rows, then rows that raise RangeError. -/
theorem test_range_table :
    ([(31, 0), (31, 31), (0, 0)] : List (Nat × Nat)).all (fun p => rangeOk p.1 p.2) = true
    ∧ ([(3, 6), (0, 1), (32, 0), (32, 32), (63, 0), (31, 32), (40, 50)] : List (Nat × Nat)).all
        (fun p => !rangeOk p.1 p.2) = true := by decide

/-- Program P5 in one line each: fields assembled with SET, and the trap of using GET's positions. -/
theorem test_P5 : setGives 0x0000A1B0#32 4 0 2#32 0x0000A1B2#32 0x0000A1A2#32 = true
    ∧ setGives 0#32 15 13 5#32 0x00002000#32 0x00002000#32 = true := by decide

/-! ### The dispatch engine: 95_test_vectors.md 2.5, 2.6, 2.7 -/

/-- The codes on the output ports, as table 2.7 prints them: class, mnemonic, form, number of operands, the three operands as kind
and value, and the unknown flag. -/
def ports (w pc : Word16) : List Nat :=
  let o := ode w pc
  [o.cls.toNat, o.mnem.code.toNat, o.form.code.toNat, o.nops.toNat]
  ++ [o.op0.kind.code.toNat, o.op0.val.toNat, o.op1.kind.code.toNat, o.op1.val.toNat]
  ++ [o.op2.kind.code.toNat, o.op2.val.toNat, o.unknown.toNat]

theorem test_ports_class_0_to_2 :
    ports 0x0295#16 0x1234#16 = [0, 1, 1, 3, 1, 5, 1, 1, 3, 5, 0]
    ∧ ports 0x13A1#16 0#16 = [0, 1, 2, 3, 1, 1, 1, 2, 1, 7, 0]
    ∧ ports 0x0400#16 0#16 = [0, 0, 0, 0, 0, 0, 0, 0, 0, 0, 1]
    ∧ ports 0x37FF#16 0#16 = [1, 2, 2, 3, 1, 15, 1, 7, 1, 15, 0]
    ∧ ports 0x5C0C#16 0x0426#16 = [2, 10, 3, 1, 4, 62, 0, 0, 0, 0, 0] := by decide

theorem test_ports_class_3_to_5 :
    ports 0x7FF0#16 0#16 = [3, 12, 4, 2, 1, 0, 3, 255, 0, 0, 0]
    ∧ ports 0x9B12#16 0#16 = [4, 16, 5, 3, 1, 2, 1, 1, 1, 6, 0]
    ∧ ports 0xA1B2#16 0#16 = [5, 13, 6, 3, 1, 2, 1, 3, 3, 3, 0]
    ∧ ports 0xB9A7#16 0#16 = [5, 17, 7, 2, 1, 2, 1, 3, 0, 0, 0]
    ∧ ports 0xB72F#16 0#16 = [5, 19, 8, 2, 2, 15, 2, 14, 0, 0, 0]
    ∧ ports 0xB150#16 0#16 = [5, 20, 9, 2, 5, 1, 1, 2, 0, 0, 0]
    ∧ ports 0xB07F#16 0#16 = [5, 21, 10, 2, 1, 15, 5, 1, 0, 0, 0] := by decide

theorem test_ports_class_6_and_7 :
    ports 0xC1A3#16 0#16 = [6, 22, 5, 3, 1, 3, 1, 2, 1, 3, 0]
    ∧ ports 0xD800#16 0#16 = [6, 0, 0, 0, 0, 0, 0, 0, 0, 0, 1]
    ∧ ports 0xE1A1#16 0#16 = [7, 25, 11, 3, 1, 1, 1, 2, 3, 3, 0]
    ∧ ports 0xFFFF#16 0xFFFF#16 = [7, 26, 11, 3, 1, 15, 1, 7, 3, 31, 0] := by decide

/-- Table 2.5. -/
theorem test_branch_table :
    (reads 0x41FF#16 0x0002#16 "bzs" "0000" && reads 0x4200#16 0x0002#16 "bzs" "0002"
    && reads 0x47FD#16 0x000A#16 "bzc" "0004" && reads 0x4BFF#16 0x03FE#16 "bcs" "03FC"
    && reads 0x4C00#16 0xFFFF#16 "bcc" "03FF" && reads 0x5000#16 0xFC00#16 "bge" "0000"
    && reads 0x5401#16 0x03FF#16 "blt" "0001" && reads 0x5801#16 0x03FE#16 "b" "0000"
    && reads 0x5C0C#16 0x8426#16 "bl" "003E" && reads 0x5E0C#16 0x0426#16 "bl" "003E") = true := by decide

/-- Table 2.6, a selection, with the aliases only in the hi-register move form. -/
theorem test_text_table :
    (reads 0x600F#16 0#16 "mov" "r15, #0" && reads 0x7ABC#16 0#16 "movt" "r12, #171"
    && reads 0x8FFF#16 0#16 "sub" "r15, r7, r15" && reads 0xA7FF#16 0#16 "add" "r15, r7, #15"
    && reads 0xB78F#16 0#16 "mov" "pc, pc" && reads 0xB70E#16 0#16 "mov" "lr, lr"
    && reads 0xB7DF#16 0#16 "msr" "spsr, r15" && reads 0xB7EF#16 0#16 "mrs" "r15, cspr"
    && reads 0xBFFF#16 0#16 "cmp" "r7, r15" && reads 0xF800#16 0#16 "lsr" "r0, r0, #16"
    && reads 0xB7BF#16 0#16 "unknown" "") = true := by decide

/-! ### Records and listings: 95_test_vectors.md section 3 -/

/-- A data record with these payload bytes. -/
def dataRecord (address : Word16) (payload : List Byte) : HexRecord :=
  ⟨BitVec.ofNat 8 payload.length, address, 0#8, payload, 0#8⟩

/-- The sample record, program P1. -/
def sampleRecord : HexRecord :=
  dataRecord 0x041A#16 ([0x0E#8, 0x24#8, 0xC0#8, 0x0C#8, 0x00#8, 0x08#8, 0xB1#8, 0x0C#8]
    ++ [0x11#8, 0x08#8, 0x0C#8, 0x5C#8, 0x91#8, 0x0C#8, 0x10#8, 0x20#8])

/-- Program P4: the addresses wrap, and an unknown word does not stop the listing. -/
def wrapRecord : HexRecord :=
  dataRecord 0xFFFC#16 [0x00#8, 0x58#8, 0x01#8, 0x5C#8, 0x00#8, 0xD8#8]

/-- The lines of a record as printed. -/
def printed (r : HexRecord) (n : Nat) : List Text := (r.lines n).map DisassemblyLine.text

theorem test_listing_P1 : printed sampleRecord 8
    = ["041A 0E24\tunknown\t".toList, "041C C00C\tunknown\t".toList, "041E 0008\tunknown\t".toList,
       "0420 B10C\tunknown\t".toList]
      ++ ["0422 1108\tunknown\t".toList, "0424 0C5C\tbl\t003E".toList, "0426 910C\tunknown\t".toList,
       "0428 1020\tstr\tr0, [r1, #0]".toList] := by decide

theorem test_listing_P4 : printed wrapRecord 3
    = ["FFFC 0058\tb\t03FE".toList, "FFFE 015C\tbl\t0002".toList, "0000 00D8\tunknown\t".toList] := by decide

/-! ### One step -/

/-- A state in which the dispatch engine is evaluated next on this word and `next_pc`. -/
def onWord (w pc : Word16) : State := { State.reset with odeIn := ⟨w, pc⟩ }

/-- A state in which the bit-field unit is evaluated next on these ports. -/
def onBfu (op : BitVec 1) (v : Word32) (msp lsp : Pos) (new : Word32) : State :=
  { State.reset with select := .bfu, bfuIn := ⟨op, v, msp, lsp, new⟩ }

/-- A state in which the environment is asked for word `k` of these records. -/
def onRecords (rs : List HexRecord) (k : Nat) : State :=
  { State.reset with select := .record, records := rs, wordIndex := k }

/-- The step from `s` answers the next state `t`. -/
def goesTo (s t : State) : Bool :=
  match step s with
  | .next u => decide (u = t)
  | .fault _ => false
  | .refused _ => false

/-- `withFetchWord` from reset makes the next step run the row's instruction: 0x9B12 is `sbc r2, r1, r6`. -/
theorem test_step_runs_fetched_word :
    goesTo (State.reset.withFetchWord 16 0x9B12)
      { onWord 0x9B12#16 0#16 with
        odeOut := ⟨4#3, .sbc, .r3, 3#2, ⟨.reg, 2#16⟩, ⟨.reg, 1#16⟩, ⟨.reg, 6#16⟩, false⟩ } = true := by decide

/-- R54's worked example on the ports, through the step. -/
theorem test_step_set :
    goesTo (onBfu 1#1 0x2AD555BC#32 11#6 8#6 2#32)
      { onBfu 1#1 0x2AD555BC#32 11#6 8#6 2#32 with bfuOut := ⟨0x2AD552BC#32, false⟩ } = true := by decide

/-- R138: word 5 of the sample record. -/
theorem test_step_sample_word_five :
    goesTo (onRecords [sampleRecord] 5)
      { onRecords [sampleRecord] 6 with
        odeIn := ⟨0x5C0C#16, 0x0426#16⟩,
        odeOut := ⟨2#3, .bl, .br, 1#2, ⟨.addr, 62#16⟩, ⟨.none, 0#16⟩, ⟨.none, 0#16⟩, false⟩,
        listing := [⟨0x0424#16, 0x0C#8, 0x5C#8, "bl".toList, "003E".toList⟩] } = true := by decide

/-! ### Witnesses for the statements about dispatch -/

/-- The hypotheses of a statement about a row of words: the engine is evaluated, on a word of the row. -/
def meetsRow (s : State) (bits rowMask : Word16) : Bool :=
  decide (s.EvaluatesOde ∧ inRow s.odeIn.word bits rowMask)

/-- The first and the last word of a row meet them. -/
def meetsAtEdges (bits rowMask : Word16) : Bool :=
  meetsRow (onWord bits 0#16) bits rowMask && meetsRow (onWord (bits ||| ~~~rowMask) 0xFFFF#16) bits rowMask

theorem witness_LoadImmediateWordsGiveLdr : meetsAtEdges 0x0000#16 0xFC00#16 = true := by decide

theorem witness_LoadIndexedAndStoreWordsGiveTheirForms :
    (meetsAtEdges 0x1000#16 0xF800#16 && meetsAtEdges 0x2000#16 0xFC00#16 && meetsAtEdges 0x3000#16 0xF800#16)
      = true := by decide

theorem witness_BranchWordsGiveMnemonicAndTarget :
    [0x4000#16, 0x4400#16, 0x4800#16, 0x4C00#16, 0x5000#16, 0x5400#16, 0x5800#16, 0x5C00#16].all
      (fun b => meetsAtEdges b 0xFC00#16) = true := by decide

theorem witness_MoveImmediateWordsGiveMovAndMovt :
    (meetsAtEdges 0x6000#16 0xF000#16 && meetsAtEdges 0x7000#16 0xF000#16) = true := by decide

theorem witness_ArithRegisterWordsGiveThreeRegisters :
    [0x8000#16, 0x8800#16, 0x9000#16, 0x9800#16].all (fun b => meetsAtEdges b 0xF800#16) = true := by decide

theorem witness_ArithImmediateAndCompareWordsGiveTheirForms :
    [0xA000#16, 0xA800#16, 0xB800#16].all (fun b => meetsAtEdges b 0xF800#16) = true := by decide

theorem witness_HiMoveWordsGiveAliasOperands :
    [0xB000#16, 0xB010#16, 0xB020#16].all (fun b => meetsAtEdges b 0xF870#16) = true := by decide

theorem witness_StatusRegisterMoveWordsGiveNameAndRegister :
    [0xB040#16, 0xB050#16, 0xB060#16, 0xB070#16].all (fun b => meetsAtEdges b 0xF870#16) = true := by decide

theorem witness_LogicalWordsGiveThreeRegisters :
    [0xC000#16, 0xC800#16, 0xD000#16].all (fun b => meetsAtEdges b 0xF800#16) = true := by decide

theorem witness_ShiftWordsGiveRegistersAndAmount :
    (meetsAtEdges 0xE000#16 0xF000#16 && meetsAtEdges 0xF000#16 0xF000#16) = true := by decide

theorem witness_UnmappedLoadStoreAndHiWordsGiveTheUnknownOutcome :
    [(0x0400#16, 0xFC00#16), (0x0800#16, 0xF800#16), (0x1800#16, 0xF800#16), (0x2400#16, 0xFC00#16),
      (0x2800#16, 0xF800#16), (0x3800#16, 0xF800#16), (0xB030#16, 0xF870#16)].all
      (fun p => meetsAtEdges p.1 p.2) = true := by decide

/-- An unknown word (the second clause's premise holds) and a known one. -/
theorem witness_UnknownExactlyOnTheEightPatterns :
    (onWord 0xDFFF#16 0#16).EvaluatesOde ∧ (ode 0xDFFF#16 0#16).unknown = true
    ∧ (onWord 0xE000#16 0#16).EvaluatesOde ∧ (ode 0xE000#16 0#16).unknown = false := by decide

/-- Two words of `cmp`, of `msr` and of `mrs` that differ in ignored bits only. -/
theorem witness_ReencodingClearsExactlyTheIgnoredBits :
    [(0xB800#16, 0xB80F#16), (0xB040#16, 0xB04F#16), (0xB06F#16, 0xB7EF#16)].all
      (fun p => decide (p.1 ≠ p.2 ∧ p.1 &&& (decodeWord p.1).careMask = p.2 &&& (decodeWord p.1).careMask))
      = true := by decide

theorem witness_StepRunsTheDecodedInstruction :
    (onWord 0xFFFF#16 0#16).select = .ode ∧ (onBfu 1#1 0#32 0#6 0#6 0#32).select = .bfu
    ∧ (onRecords [sampleRecord] 7).select = .record
    ∧ (onRecords [sampleRecord] 7).presentation = .word 0x0428#16 0x10#8 0x20#8
    ∧ decodeTableWord 16 0xFFFF = some (.lsr 15#4 7#4 31#5) ∧ decodeTableWord 8 1 = some .bfSet := by decide

/-- Masks of 0 and of 11 low bits; offsets that differ in bit 9 only; next_pc values that differ above bit 9 only. -/
theorem witness_BranchTargetIgnoresSignBitNineAndHighAddressBits :
    (0 ≤ 11 ∧ 11 ≤ 11) ∧ (0x000#10).extractLsb' 0 9 = (0x200#10).extractLsb' 0 9
    ∧ (0x0000#16).extractLsb' 0 10 = (0xFC00#16).extractLsb' 0 10 := by decide

/-- A word outside class 2 at each side of the class, and two values of next_pc with the same low 10 bits. -/
theorem witness_NextPcMattersForTheBranchOperandOnly :
    (0x3FFF#16).extractLsb' 13 3 ≠ 2#3 ∧ (0x6000#16).extractLsb' 13 3 ≠ 2#3
    ∧ (0x0426#16).extractLsb' 0 10 = (0x8426#16).extractLsb' 0 10 := by decide

theorem witness_OutputsAreShapedWhateverTheOpenTables : Params.spec.branchMask.toNat ≤ 0x3FF := by decide

/-! ### Witnesses for the statements about the bit-field unit -/

theorem witness_GetExtractsTheNamedBits :
    (onBfu 0#1 0xFFFFFFFF#32 31#6 0#6 0#32).bfuIn.Legal ∧ (onBfu 0#1 1#32 0#6 0#6 0#32).bfuIn.Legal
    ∧ ¬ (onBfu 0#1 1#32 32#6 0#6 0#32).bfuIn.Legal ∧ ¬ (onBfu 0#1 1#32 0#6 1#6 0#32).bfuIn.Legal := by decide

/-- Legal at both ends; bit 30 lies in the field (31, 0) and bit 31 does not; illegal by each cause. -/
theorem witness_SetReplacesTheBitsBelowMsp :
    (onBfu 1#1 0#32 31#6 0#6 0#32).bfuIn.Legal ∧ (onBfu 1#1 0#32 31#6 31#6 0#32).bfuIn.Legal
    ∧ (0 ≤ 30 ∧ 30 < 31) ∧ ¬ (0 ≤ 31 ∧ 31 < 31)
    ∧ ¬ (onBfu 1#1 0#32 63#6 0#6 0#32).bfuIn.Legal ∧ ¬ (onBfu 1#1 0#32 30#6 31#6 0#32).bfuIn.Legal := by decide

theorem witness_RangeErrorDependsOnPositionsOnly :
    (onBfu 0#1 0#32 32#6 32#6 0#32).select = .bfu ∧ (onBfu 1#1 0#32 31#6 31#6 0#32).select = .bfu := by decide

/-- The positions (msp, lsp) of a legal field, as natural numbers. -/
def legal (msp lsp : Nat) : Bool := decide (lsp ≤ msp ∧ msp ≤ 31)

theorem witness_GetMasksFirstOrShiftsFirst : (legal 0 0 && legal 31 0 && legal 31 31) = true := by decide

theorem witness_SetCornerCases : (legal 0 0 && legal 31 31 && legal 31 0) = true := by decide

/-- Legal fields; with lsp below msp at both ends; bits below and above the field. -/
theorem witness_GetReadsBackWhatSetWrote :
    (legal 1 0 && legal 31 30 && legal 31 31) = true ∧ 0 < 1 ∧ 30 < 31 ∧ (29 < 30 ∨ 31 ≤ 29) ∧ (31 < 30 ∨ 31 ≤ 31) := by
  decide

/-- A result of GET; a split point at each end of the field. -/
theorem witness_GetIsBoundedAndSplits :
    getBits 0xFFFFFFFF#32 31 0 = .ok 0xFFFFFFFF#32
    ∧ (0 ≤ 0 ∧ 0 < 31 ∧ 31 ≤ 31) ∧ (0 ≤ 30 ∧ 30 < 31 ∧ 31 ≤ 31) := ⟨rfl, by decide, by decide⟩

theorem witness_ClearedTopMakesTheDocumentsRoundTripHold : (legal 31 0 && legal 0 0) = true := by decide

/-- Two states with the same operands after a failed and after a good operation; for GET with another bf_new as well. -/
theorem witness_GetAndSetReadOperandsAndWriteResultOnly :
    (onBfu 0#1 7#32 3#6 1#6 0#32).bfuIn.value = (onBfu 0#1 7#32 3#6 1#6 2#32).bfuIn.value
    ∧ (onBfu 0#1 7#32 3#6 1#6 0#32).bfuIn.msp = (onBfu 0#1 7#32 3#6 1#6 2#32).bfuIn.msp
    ∧ (onBfu 0#1 7#32 3#6 1#6 0#32).bfuIn.lsp = (onBfu 0#1 7#32 3#6 1#6 2#32).bfuIn.lsp
    ∧ (onBfu 1#1 7#32 32#6 1#6 2#32).bfuIn
        = ({ onBfu 1#1 7#32 32#6 1#6 2#32 with bfuOut := ⟨5#32, true⟩ } : State).bfuIn := by decide

/-! ### Witnesses for the statements about steps -/

/-- Two states with the same engine inputs, and two with the same bit-field inputs, that differ in the rest. -/
theorem witness_OutputsAreAFunctionOfPresentInputs :
    (onWord 0x5C0C#16 2#16).select = .ode
    ∧ ({ onWord 0x5C0C#16 2#16 with odeOut := unknownOutcome 1#3, wordIndex := 9 } : State).select = .ode
    ∧ (onWord 0x5C0C#16 2#16).odeIn
        = ({ onWord 0x5C0C#16 2#16 with odeOut := unknownOutcome 1#3, wordIndex := 9 } : State).odeIn
    ∧ (onBfu 1#1 7#32 3#6 1#6 2#32).select = .bfu
    ∧ ({ onBfu 1#1 7#32 3#6 1#6 2#32 with bfuOut := ⟨5#32, true⟩ } : State).select = .bfu
    ∧ (onBfu 1#1 7#32 3#6 1#6 2#32).bfuIn
        = ({ onBfu 1#1 7#32 3#6 1#6 2#32 with bfuOut := ⟨5#32, true⟩ } : State).bfuIn := by decide

/-- A step gives a next state. -/
def goesOn (s : State) : Bool :=
  match step s with
  | .next _ => true
  | .fault _ => false
  | .refused _ => false

/-- An end-of-data record (95_test_vectors.md S5). -/
def endRecord : HexRecord := ⟨0#8, 0#16, 1#8, [], 0xFF#8⟩

/-- An end-of-data record with an odd byte count. -/
def oddEndRecord : HexRecord := ⟨1#8, 0#16, 1#8, [0x0C#8], 0#8⟩

/-- Settled states that go on: an evaluation of each block, a presented word, an exhausted record, the end of the data, nothing
pending. -/
theorem witness_EveryStepKeepsTheOutputsSettled :
    [State.reset, { State.reset with select := .bfu }, onRecords [sampleRecord] 0, onRecords [sampleRecord] 8,
      onRecords [endRecord] 0, onRecords [] 0].all (fun s => decide s.Settled && goesOn s) = true := by decide

/-- The same with a line in the listing. -/
theorem witness_EveryStepKeepsTheListingFaithful :
    [State.reset, onRecords [sampleRecord] 0, onRecords [endRecord] 0].all
      (fun s => decide ({ s with listing := sampleRecord.lines 1 } : State).ListingFaithful
        && goesOn { s with listing := sampleRecord.lines 1 }) = true := by decide

/-- Records that stop the step: each reason, at the edges of its range. -/
def oddRecord : HexRecord := dataRecord 0#16 [0x0C#8]

/-- A record of a type with no payload. -/
def typedRecord (t : Byte) : HexRecord := ⟨0#8, 0#16, t, [], 0#8⟩

/-- A record whose payload is not as long as its byte count. -/
def mismatchRecord : HexRecord := ⟨2#8, 0#16, 0#8, [0x0C#8], 0#8⟩

theorem witness_StepStopsOnlyOnAnUnpresentableRecord :
    [oddRecord, typedRecord 2#8, typedRecord 255#8, mismatchRecord].all
      (fun r => decide ((onRecords [r] 0).select = .record ∧ (onRecords [r] 0).streamComplete = false
        ∧ (onRecords [r] 0).records = r :: [] ∧ r.Stops) && !goesOn (onRecords [r] 0)) = true := by decide

theorem witness_UnpresentableRecordsStopByName :
    (oddRecord.wf = true ∧ oddRecord.recordType = 0#8 ∧ oddRecord.payload.length % 2 = 1)
    ∧ ((typedRecord 2#8).wf = true ∧ 2 ≤ (typedRecord 2#8).recordType.toNat ∧ (typedRecord 5#8).wf = true
        ∧ (typedRecord 5#8).recordType.toNat ≤ 5)
    ∧ ((typedRecord 6#8).wf = true ∧ 6 ≤ (typedRecord 6#8).recordType.toNat)
    ∧ mismatchRecord.wf = false := by decide

/-- The pending record of `onRecords [r] k` and its stream, as the statements about records ask. -/
def pending (r : HexRecord) (k : Nat) : Bool :=
  decide ((onRecords [r] k).select = .record ∧ (onRecords [r] k).streamComplete = false
    ∧ (onRecords [r] k).records = r :: [] ∧ (onRecords [r] k).wordIndex = k)

/-- The first and the last word of the sample record, and the word of program P4 at which next_pc wraps. -/
theorem witness_PresentedWordIsLittleEndianWithNextPcAfterIt :
    (pending sampleRecord 0 && pending sampleRecord 7 && pending wrapRecord 1) = true
    ∧ sampleRecord.Presentable ∧ wrapRecord.Presentable
    ∧ sampleRecord.payload[0]? = some 0x0E#8 ∧ sampleRecord.payload[1]? = some 0x24#8
    ∧ sampleRecord.payload[14]? = some 0x10#8 ∧ sampleRecord.payload[15]? = some 0x20#8
    ∧ wrapRecord.payload[2]? = some 0x01#8 ∧ wrapRecord.payload[3]? = some 0x5C#8 := by decide

/-- The usual end-of-data record, and one with an odd byte count (notes/assumptions/22.md). -/
theorem witness_EndOfDataEndsTheStreamWithoutALine :
    (pending endRecord 0 = true ∧ endRecord.wf = true ∧ endRecord.recordType = 1#8)
    ∧ (pending oddEndRecord 0 = true ∧ oddEndRecord.wf = true ∧ oddEndRecord.recordType = 1#8)
    ∧ ({ onRecords [sampleRecord] 3 with streamComplete := true } : State).streamComplete = true
    ∧ (onRecords [] 0).select = .record ∧ (onRecords [] 0).records = [] := by decide

/-- No word, some and all words of the sample record; an empty data record. -/
theorem witness_DataRecordIsListedWholeInWordOrder :
    (pending sampleRecord 0 && pending (dataRecord 0#16 []) 0) = true
    ∧ sampleRecord.Presentable ∧ (dataRecord 0#16 []).Presentable
    ∧ 2 * 0 ≤ sampleRecord.payload.length ∧ 2 * 8 = sampleRecord.payload.length
    ∧ 2 * 0 = (dataRecord 0#16 []).payload.length := by decide

/-- A record whose last word is at 0xFFFE. -/
theorem witness_RecordLinesAscendInAddress : wrapRecord.address.toNat + 2 * 2 ≤ 65536 := by decide

/-- The first and the last word of class 2; a digit of an address; two equal texts. -/
theorem witness_BranchTextIsFourHexDigitsOfTheTarget :
    (0x4000#16).extractLsb' 13 3 = 2#3 ∧ (0x5FFF#16).extractLsb' 13 3 = 2#3 ∧ 'F' ∈ hex4 0x003F#16
    ∧ hex4 0xFFFF#16 = hex4 0xFFFF#16 := by decide

/-- Two different words with the same text. -/
theorem witness_RenderedTextDeterminesTheInstruction :
    0xB9A7#16 ≠ 0xB9A0#16 ∧ render (ode 0xB9A7#16 0#16) = render (ode 0xB9A0#16 4#16) := by decide

/-- Two uses of a name have one code, and that is the table's: `lsr` is 26, F_SH 11, PSR 5. -/
theorem witness_PortCodesAndTextsAreTheTables :
    Mnemonic.code .lsr = 26#5 ∧ Form.code .sh = 11#4 ∧ Kind.code .psr = 5#3
    ∧ (.lsr, 26, "lsr") ∈ mnemonicTable ∧ (.psr, 5) ∈ kindTable := by decide

theorem witness_SampleRecordLineReadsAsTheSpecWorksItOut :
    pending sampleRecord 5 = true ∧ sampleRecord.Presentable ∧ sampleRecord.address = 0x041A#16
    ∧ (sampleRecord.payload.drop 10).take 2 = [0x0C#8, 0x5C#8] := by decide

end Sys2Proof.Tests
end

section
/-! PROOFS. The state and the step (10_state.md): what one evaluation of each block does, what a step can do, and from these the
statements that the outputs are always the function of the present inputs. -/

namespace Sys2Proof.Machine

/-! ### The values of a selector -/

theorem bitVec1_cases (x : BitVec 1) : x = 0#1 ∨ x = 1#1 := by
  revert x; decide

theorem bitVec2_cases (x : BitVec 2) : x = 0#2 ∨ x = 1#2 ∨ x = 2#2 ∨ x = 3#2 := by
  revert x; decide

theorem bitVec3_cases (x : BitVec 3) :
    x = 0#3 ∨ x = 1#3 ∨ x = 2#3 ∨ x = 3#3 ∨ x = 4#3 ∨ x = 5#3 ∨ x = 6#3 ∨ x = 7#3 := by
  revert x; decide

/-! ### The meaning of a decoded word is the engine's function (41_dispatch.md R69)

One lemma per class. In each, the selector's value picks the same leaf of the decoder's multiplexer and of the engine's table. -/

section
variable {w : Word16} (s : State)

theorem exec_decodeLoad (hc : fieldCls w = 0#3) :
    exec (decodeLoad w) s = .next (s.driveOde (ode w s.odeIn.nextPc)) := by
  have hode : ode w s.odeIn.nextPc = loadStoreWith Params.spec .ldr w := by simp [ode, odeWith, hc]
  rw [hode, decodeLoad, loadStoreWith, hc]
  rcases bitVec3_cases (fieldSub3 w) with h | h | h | h | h | h | h | h <;> rw [h] <;> rfl

theorem exec_decodeStore (hc : fieldCls w = 1#3) :
    exec (decodeStore w) s = .next (s.driveOde (ode w s.odeIn.nextPc)) := by
  have hode : ode w s.odeIn.nextPc = loadStoreWith Params.spec .str w := by simp [ode, odeWith, hc]
  rw [hode, decodeStore, loadStoreWith, hc]
  rcases bitVec3_cases (fieldSub3 w) with h | h | h | h | h | h | h | h <;> rw [h] <;> rfl

theorem exec_decodeBranch (hc : fieldCls w = 2#3) :
    exec (decodeBranch w) s = .next (s.driveOde (ode w s.odeIn.nextPc)) := by
  have hode : ode w s.odeIn.nextPc = emit 2#3 (branchMnemonic (fieldSub3 w)) .br
      (branchTarget s.odeIn.nextPc (fieldOff10 w)) 0#16 0#16 := by
    simp [ode, odeWith, hc, branchTarget, Params.spec]
  rw [hode, decodeBranch, branchMnemonic]
  rcases bitVec3_cases (fieldSub3 w) with h | h | h | h | h | h | h | h <;> rw [h] <;> rfl

theorem exec_decodeMoveImmediate (hc : fieldCls w = 3#3) :
    exec (decodeMoveImmediate w) s = .next (s.driveOde (ode w s.odeIn.nextPc)) := by
  have hode : ode w s.odeIn.nextPc = emit 3#3 (if fieldSub1 w = 0#1 then .mov else .movt) .movi
      (fieldVal (fieldRd w)) (fieldVal (fieldImm8 w)) 0#16 := by
    simp [ode, odeWith, hc]
  rw [hode, decodeMoveImmediate]
  rcases bitVec1_cases (fieldSub1 w) with h | h <;> rw [h] <;> rfl

theorem exec_decodeArithRegister (hc : fieldCls w = 4#3) :
    exec (decodeArithRegister w) s = .next (s.driveOde (ode w s.odeIn.nextPc)) := by
  have hode : ode w s.odeIn.nextPc = emit 4#3 (mux4 (fieldSub2 w) .add .sub .adc .sbc) .r3
      (fieldVal (fieldRd w)) (fieldVal (fieldRn w)) (fieldVal (fieldRm w)) := by
    simp [ode, odeWith, hc]
  rw [hode, decodeArithRegister]
  rcases bitVec2_cases (fieldSub2 w) with h | h | h | h <;> rw [h] <;> rfl

/-- The third level of the dispatch, on `FN3` (R104). -/
theorem exec_decodeHi (hc : fieldCls w = 5#3) :
    exec (decodeHi w) s = .next (s.driveOde (hiWith Params.spec w)) := by
  rw [decodeHi, hiWith, hc]
  rcases bitVec3_cases (fieldFn3 w) with h | h | h | h | h | h | h | h <;> rw [h] <;> rfl

theorem exec_decodeArithImmCompareHi (hc : fieldCls w = 5#3) :
    exec (decodeArithImmCompareHi w) s = .next (s.driveOde (ode w s.odeIn.nextPc)) := by
  rcases bitVec2_cases (fieldSub2 w) with h | h | h | h
  case inr.inr.inl =>
    have hode : ode w s.odeIn.nextPc = hiWith Params.spec w := by simp [ode, odeWith, hc, h]
    rw [hode, decodeArithImmCompareHi, h, mux4_two, exec_decodeHi s hc]
  all_goals
    simp only [ode, odeWith, hc, decodeArithImmCompareHi, h]
    rfl

theorem exec_decodeLogical (hc : fieldCls w = 6#3) :
    exec (decodeLogical w) s = .next (s.driveOde (ode w s.odeIn.nextPc)) := by
  have hode : ode w s.odeIn.nextPc = emitCase 6#3 (Params.logicalDefault (fieldSub2 w).toFin) .r3
      (fieldVal (fieldRd w)) (fieldVal (fieldRn w)) (fieldVal (fieldRm w)) := by
    simp [ode, odeWith, hc, Params.spec]
  rw [hode, decodeLogical]
  rcases bitVec2_cases (fieldSub2 w) with h | h | h | h <;> rw [h] <;> rfl

theorem exec_decodeShift (hc : fieldCls w = 7#3) :
    exec (decodeShift w) s = .next (s.driveOde (ode w s.odeIn.nextPc)) := by
  have hode : ode w s.odeIn.nextPc = emitCase 7#3 (Params.shiftDefault (fieldSub1 w).toFin) .sh
      (fieldVal (fieldRd w)) (fieldVal (fieldRn w)) (fieldVal (fieldShamt w)) := by
    simp [ode, odeWith, hc, shiftWith, Params.spec]
  rw [hode, decodeShift]
  rcases bitVec1_cases (fieldSub1 w) with h | h <;> rw [h] <;> rfl

end

/-- Decoding a word and taking its meaning drives the outputs to the engine's one function of `word` and `next_pc`, and changes
nothing else (R10, R69). -/
theorem exec_decodeWord (w : Word16) (s : State) :
    exec (decodeWord w) s = .next (s.driveOde (ode w s.odeIn.nextPc)) := by
  rcases bitVec3_cases (fieldCls w) with hc | hc | hc | hc | hc | hc | hc | hc <;> rw [decodeWord, hc]
  · exact exec_decodeLoad s hc
  · exact exec_decodeStore s hc
  · exact exec_decodeBranch s hc
  · exact exec_decodeMoveImmediate s hc
  · exact exec_decodeArithRegister s hc
  · exact exec_decodeArithImmCompareHi s hc
  · exact exec_decodeLogical s hc
  · exact exec_decodeShift s hc

/-- The operation that `bf_op` selects drives the unit's outputs to its one function of the input ports (R10, R50). -/
theorem exec_decodeBfOp (s : State) : exec (decodeBfOp s.bfuIn.op) s = .next { s with bfuOut := bfu s.bfuIn } := by
  rcases bitVec1_cases s.bfuIn.op with h | h
  · have hbfu : bfu s.bfuIn = bfuOutOf (getBits s.bfuIn.value s.bfuIn.msp.toNat s.bfuIn.lsp.toNat) := by
      simp [bfu, bfuWith, h]
    rw [hbfu, h]; rfl
  · have hbfu : bfu s.bfuIn
        = bfuOutOf (setBits s.bfuIn.value s.bfuIn.msp.toNat s.bfuIn.lsp.toNat s.bfuIn.newValue) := by
      simp [bfu, bfuWith, setBits, h]
    rw [hbfu, h]; rfl

/-! ### The step, by what it selects -/

section
variable {s t : State}

theorem step_ode (h : s.select = .ode) : step s = .next (s.driveOde (ode s.odeIn.word s.odeIn.nextPc)) := by
  simpa only [step, h, decode] using exec_decodeWord s.odeIn.word s

theorem step_bfu (h : s.select = .bfu) : step s = .next { s with bfuOut := bfu s.bfuIn } := by
  simpa only [step, h, decode] using exec_decodeBfOp s

/-- The state after a presented word: its inputs on the ports, the engine's outputs for them, its line in the listing (R22, R23,
R136). -/
def State.afterPresented (s : State) (a : Word16) (lo hi : Byte) : State :=
  ((s.presentWord a lo hi).driveOde (ode (assembleWord lo hi) (nextPcAt a))).printLine
    (lineOf a lo hi (ode (assembleWord lo hi) (nextPcAt a)))

theorem step_word {a : Word16} {lo hi : Byte} (h : s.select = .record) (hp : s.presentation = .word a lo hi) :
    step s = .next (s.afterPresented a lo hi) := by
  simp only [step, h, hp, decode, exec_decodeWord]
  rfl

/-- Everything a step that goes on can do: evaluate a block, present a word, or move the environment, which leaves both blocks
alone. -/
theorem step_cases (h : step s = .next t) :
    (s.select = .ode ∧ t = s.driveOde (ode s.odeIn.word s.odeIn.nextPc))
    ∨ (s.select = .bfu ∧ t = { s with bfuOut := bfu s.bfuIn })
    ∨ (s.select = .record ∧ ∃ a lo hi, s.presentation = .word a lo hi ∧ t = s.afterPresented a lo hi)
    ∨ (s.select = .record ∧ s.presentation = .recordDone ∧ t = s.nextRecord)
    ∨ (s.select = .record ∧ s.presentation = .endOfData ∧ t = s.endStream)
    ∨ (s.select = .record ∧ s.presentation = .nothing ∧ t = s) := by
  cases hsel : s.select with
  | ode =>
    rw [step_ode hsel] at h
    cases h; simp
  | bfu =>
    rw [step_bfu hsel] at h
    cases h; simp [hsel]
  | record =>
    cases hp : s.presentation with
    | word a lo hi =>
      rw [step_word hsel hp] at h
      cases h
      exact .inr (.inr (.inl ⟨rfl, a, lo, hi, rfl, rfl⟩))
    | recordDone => simp only [step, hsel, hp] at h; cases h; simp
    | endOfData => simp only [step, hsel, hp] at h; cases h; simp
    | nothing => simp only [step, hsel, hp] at h; cases h; simp
    | stop f => simp [step, hsel, hp] at h
    | refuse r => simp [step, hsel, hp] at h

end

/-! ### The statements -/

/-- Settles O41. An evaluation puts its own block at the function of its inputs and leaves the other alone; a presented word drives the
engine's inputs and its outputs together; a move of the environment touches neither block. -/
theorem everyStepKeepsTheOutputsSettled : Obligations.EveryStepKeepsTheOutputsSettled := by
  rintro s t ⟨hode, hbfu⟩ hstep
  obtain ⟨-, rfl⟩ | ⟨-, rfl⟩ | ⟨-, a, lo, hi, -, rfl⟩ | ⟨-, -, rfl⟩ | ⟨-, -, rfl⟩ | ⟨-, -, rfl⟩ := step_cases hstep
  · exact ⟨rfl, hbfu⟩
  · exact ⟨hode, rfl⟩
  · exact ⟨rfl, hbfu⟩
  · exact ⟨hode, hbfu⟩
  · exact ⟨hode, hbfu⟩
  · exact ⟨hode, hbfu⟩

/-- Settles O39. The outputs an evaluation drives are the block's function of the inputs the two states share; once driven, the next
evaluation drives the same again. -/
theorem outputsAreAFunctionOfPresentInputs : Obligations.OutputsAreAFunctionOfPresentInputs := by
  constructor
  · intro s s' h h' hin
    refine ⟨_, _, step_ode h, step_ode h', ?_, ?_⟩
    · simp [hin]
    · exact step_ode (s := s.driveOde (ode s.odeIn.word s.odeIn.nextPc)) h
  · intro s s' h h' hin
    refine ⟨_, _, step_bfu h, step_bfu h', ?_, ?_⟩
    · simp [hin]
    · exact step_bfu (s := { s with bfuOut := bfu s.bfuIn }) h

/-- Settles O43. The two blocks are evaluated at their reset inputs; the rest is read off the reset state. -/
theorem resetIsSettledWithAnEmptyListing : Obligations.ResetIsSettledWithAnEmptyListing := by
  have hsettled : State.reset.Settled := by decide
  have hempty : State.reset.listing = [] := rfl
  have hfaithful : State.reset.ListingFaithful := by simp [State.ListingFaithful, hempty]
  exact ⟨hsettled, hfaithful, hempty, rfl, rfl, rfl⟩

end Sys2Proof.Machine
end

section
/-! PROOFS. The environment (20_memory.md): what a record presents at each word, what the step makes of it, and from these the
statements about stops, presented words, the end of the stream and the listing of a whole record. -/

namespace Sys2Proof.Machine

/-! ### The words of a record (R22, R23, R28) -/

section
variable {r : HexRecord} {k n : Nat} {lo hi : Byte}

theorem assembleWord_toNat (lo hi : Byte) : (assembleWord lo hi).toNat = lo.toNat + 256 * hi.toNat := by
  rw [assembleWord, BitVec.toNat_append, ← Nat.shiftLeft_add_eq_or_of_lt lo.isLt, Nat.shiftLeft_eq]
  omega

theorem HexRecord.addressAt_toNat (r : HexRecord) (k : Nat) :
    (r.addressAt k).toNat = (r.address.toNat + 2 * k) % 65536 := by
  simp [HexRecord.addressAt]

theorem nextPcAt_toNat (a : Word16) : (nextPcAt a).toNat = (a.toNat + 2) % 65536 := by
  simp [nextPcAt]

theorem HexRecord.bytesAt_eq_some_iff :
    r.bytesAt k = some (lo, hi) ↔ r.payload[2 * k]? = some lo ∧ r.payload[2 * k + 1]? = some hi := by
  have hlo : r.payload[2 * k]? = (r.payload.drop (2 * k))[0]? := by simp
  have hhi : r.payload[2 * k + 1]? = (r.payload.drop (2 * k))[1]? := by simp
  rw [hlo, hhi, HexRecord.bytesAt]
  match r.payload.drop (2 * k) with
  | [] => simp
  | [_] => simp
  | _ :: _ :: _ => simp

theorem HexRecord.bytesAt_eq_none (h : r.payload.length ≤ 2 * k) : r.bytesAt k = none := by
  rw [HexRecord.bytesAt, List.drop_eq_nil_of_le h]

theorem HexRecord.exists_bytesAt (h : 2 * (k + 1) ≤ r.payload.length) : ∃ lo hi, r.bytesAt k = some (lo, hi) :=
  ⟨_, _, bytesAt_eq_some_iff.2
    ⟨List.getElem?_eq_getElem (by omega : 2 * k < _), List.getElem?_eq_getElem (by omega : 2 * k + 1 < _)⟩⟩

theorem HexRecord.lineAt_of_bytesAt (h : r.bytesAt k = some (lo, hi)) :
    r.lineAt k = lineOf (r.addressAt k) lo hi (ode (assembleWord lo hi) (nextPcAt (r.addressAt k))) := by
  obtain ⟨hlo, hhi⟩ := bytesAt_eq_some_iff.1 h
  simp [HexRecord.lineAt, hlo, hhi]

@[simp] theorem HexRecord.lineAt_address (r : HexRecord) (k : Nat) : (r.lineAt k).address = r.addressAt k := rfl

@[simp] theorem HexRecord.lines_zero (r : HexRecord) : r.lines 0 = [] := rfl

theorem HexRecord.lines_succ (r : HexRecord) (n : Nat) : r.lines (n + 1) = r.lines n ++ [r.lineAt n] := by
  simp [HexRecord.lines, List.range_succ]

/-! ### What a record presents, one lemma per outcome (R21, R24) -/

theorem HexRecord.presentation_of_length_mismatch (h : r.wf = false) :
    r.presentation k = .stop .recordLengthMismatch := by
  simp [HexRecord.presentation, h]

theorem HexRecord.presentation_of_endOfData (hwf : r.wf = true) (ht : r.recordType = 1#8) :
    r.presentation k = .endOfData := by
  simp [HexRecord.presentation, hwf, ht]

theorem HexRecord.presentation_of_invalid_type (hwf : r.wf = true) (ht : 6 ≤ r.recordType.toNat) :
    r.presentation k = .refuse .invalidRecordType := by
  have hne : r.recordType ≠ 1#8 := by bv_omega
  have hgt : 5 < r.recordType.toNat := by omega
  simp [HexRecord.presentation, hwf, hne, hgt]

theorem HexRecord.presentation_of_unhandled_type (hwf : r.wf = true) (hlo : 2 ≤ r.recordType.toNat)
    (hhi : r.recordType.toNat ≤ 5) : r.presentation k = .refuse .unhandledRecordType := by
  have hne1 : r.recordType ≠ 1#8 := by bv_omega
  have hne0 : r.recordType ≠ 0#8 := by bv_omega
  simp [HexRecord.presentation, hwf, hne1, hne0, hhi]

theorem HexRecord.presentation_of_odd_data (hwf : r.wf = true) (ht : r.recordType = 0#8)
    (hodd : r.payload.length % 2 = 1) : r.presentation k = .refuse .oddByteCount := by
  simp [HexRecord.presentation, hwf, ht, hodd]

theorem HexRecord.presentation_of_bytesAt (h : r.Presentable) (hb : r.bytesAt k = some (lo, hi)) :
    r.presentation k = .word (r.addressAt k) lo hi := by
  obtain ⟨hwf, ht, heven⟩ := h
  simp [HexRecord.presentation, hwf, ht, heven, hb]

theorem HexRecord.presentation_of_no_bytesAt (h : r.Presentable) (hb : r.bytesAt k = none) :
    r.presentation k = .recordDone := by
  obtain ⟨hwf, ht, heven⟩ := h
  simp [HexRecord.presentation, hwf, ht, heven, hb]

end

/-! ### What the pending records present -/

section
variable {s : State}

theorem State.presentation_of_records {r : HexRecord} {rest : List HexRecord} (hc : s.streamComplete = false)
    (hr : s.records = r :: rest) : s.presentation = r.presentation s.wordIndex := by
  simp [State.presentation, hc, hr]

theorem State.presentation_of_complete (h : s.streamComplete = true) : s.presentation = .nothing := by
  simp [State.presentation, h]

theorem State.presentation_of_no_records (h : s.records = []) : s.presentation = .nothing := by
  simp [State.presentation, h]

/-! ### The step on what is presented; `step_word` says it for a word -/

theorem step_recordDone (h : s.select = .record) (hp : s.presentation = .recordDone) : step s = .next s.nextRecord := by
  simp only [step, h, hp]

theorem step_endOfData (h : s.select = .record) (hp : s.presentation = .endOfData) : step s = .next s.endStream := by
  simp only [step, h, hp]

theorem step_nothing (h : s.select = .record) (hp : s.presentation = .nothing) : step s = .next s := by
  simp only [step, h, hp]

theorem step_stop {f : Fault} (h : s.select = .record) (hp : s.presentation = .stop f) : step s = .fault f := by
  simp only [step, h, hp]

theorem step_refuse {q : Refusal} (h : s.select = .record) (hp : s.presentation = .refuse q) : step s = .refused q := by
  simp only [step, h, hp]

end

/-! ### When a step stops -/

/-- What the environment has next stops the machine: a fault or a refusal, each by name. -/
def Presentation.Stops (p : Presentation) : Prop := (∃ f, p = .stop f) ∨ ∃ q, p = .refuse q

/-- A record's presentation stops the machine exactly where the record does, at whatever word it stands. -/
theorem HexRecord.presentation_stops_iff (r : HexRecord) (k : Nat) : (r.presentation k).Stops ↔ r.Stops := by
  constructor
  · intro h
    by_contra hgo
    simp only [HexRecord.Stops, not_or, not_and, Bool.not_eq_false] at hgo
    obtain ⟨hwf, htype, heven⟩ := hgo
    by_cases ht : r.recordType = 0#8
    · have hpres : r.Presentable := ⟨hwf, ht, by have := heven ht; omega⟩
      cases hb : r.bytesAt k with
      | none => simp [presentation_of_no_bytesAt hpres hb, Presentation.Stops] at h
      | some b => simp [presentation_of_bytesAt hpres (lo := b.1) (hi := b.2) hb, Presentation.Stops] at h
    · simp [presentation_of_endOfData hwf (not_not.1 (htype ht)), Presentation.Stops] at h
  · intro h
    cases hwf : r.wf with
    | false => exact .inl ⟨_, presentation_of_length_mismatch hwf⟩
    | true =>
      rcases h with h | ⟨h0, h1⟩ | ⟨h0, hodd⟩
      · simp [hwf] at h
      · have hlo : 2 ≤ r.recordType.toNat := by bv_omega
        rcases Nat.lt_or_ge 5 r.recordType.toNat with hhi | hhi
        · exact .inr ⟨_, presentation_of_invalid_type hwf hhi⟩
        · exact .inr ⟨_, presentation_of_unhandled_type hwf hlo hhi⟩
      · exact .inr ⟨_, presentation_of_odd_data hwf h0 hodd⟩

theorem State.presentation_stops_iff (s : State) :
    s.presentation.Stops ↔ s.streamComplete = false ∧ ∃ r rest, s.records = r :: rest ∧ r.Stops := by
  cases hc : s.streamComplete with
  | true => simp [presentation_of_complete hc, Presentation.Stops]
  | false =>
    cases hr : s.records with
    | nil => simp [presentation_of_no_records hr, Presentation.Stops]
    | cons r rest =>
      rw [presentation_of_records hc hr, HexRecord.presentation_stops_iff]
      simp

/-- Both blocks always answer (R61), so only what the environment presents can stop a step. -/
theorem step_stops_iff (s : State) : (∀ t, step s ≠ .next t) ↔ s.select = .record ∧ s.presentation.Stops := by
  cases hsel : s.select with
  | ode => simp [step_ode hsel]
  | bfu => simp [step_bfu hsel]
  | record =>
    cases hp : s.presentation with
    | word a lo hi => simp [step_word hsel hp, Presentation.Stops]
    | recordDone => simp [step_recordDone hsel hp, Presentation.Stops]
    | endOfData => simp [step_endOfData hsel hp, Presentation.Stops]
    | nothing => simp [step_nothing hsel hp, Presentation.Stops]
    | stop f => exact iff_of_true (by simp [step_stop hsel hp]) ⟨rfl, .inl ⟨f, rfl⟩⟩
    | refuse q => exact iff_of_true (by simp [step_refuse hsel hp]) ⟨rfl, .inr ⟨q, rfl⟩⟩

/-! ### Running through a record -/

/-- The last of `n + 1` steps is the step from where the first `n` led. -/
theorem run_succ_of_run {M : Host.Core} {n : Nat} {s t : M.State} (h : M.run n s = .next t) :
    M.run (n + 1) s = M.step t := by
  induction n generalizing s with
  | zero =>
    obtain rfl : s = t := by simpa only [Host.Core.run, Host.Outcome.next.injEq] using h
    simp only [Host.Core.run]
    cases M.step s <;> rfl
  | succ n ih =>
    rw [Host.Core.run] at h ⊢
    cases hs : M.step s with
    | next u => simp only [hs] at h ⊢; exact ih h
    | fault f => simp [hs] at h
    | refused q => simp [hs] at h

section
variable {s : State} {r : HexRecord} {rest : List HexRecord}

/-- One step on a presentable record that has word `wordIndex`: the word is presented and its line printed. -/
theorem step_of_bytesAt {lo hi : Byte} (hsel : s.select = .record) (hc : s.streamComplete = false)
    (hr : s.records = r :: rest) (hpres : r.Presentable) (hb : r.bytesAt s.wordIndex = some (lo, hi)) :
    step s = .next (s.afterPresented (r.addressAt s.wordIndex) lo hi) :=
  step_word hsel (by rw [State.presentation_of_records hc hr, HexRecord.presentation_of_bytesAt hpres hb])

/-- With its words all presented, a record is dropped in a step of its own (notes/assumptions/19.md). -/
theorem step_of_exhausted (hsel : s.select = .record) (hc : s.streamComplete = false) (hr : s.records = r :: rest)
    (hpres : r.Presentable) (hend : r.payload.length ≤ 2 * s.wordIndex) :
    step s = .next { s with records := rest, wordIndex := 0 } := by
  have hdone : s.presentation = .recordDone := by
    rw [State.presentation_of_records hc hr,
      HexRecord.presentation_of_no_bytesAt hpres (HexRecord.bytesAt_eq_none hend)]
  simp [step_recordDone hsel hdone, State.nextRecord, hr]

/-- The run through the first `n` words of a record: the listing has their lines, the words are counted, and beside the dispatch
engine's ports nothing else has changed. -/
theorem run_lists_words (hsel : s.select = .record) (hc : s.streamComplete = false) (hr : s.records = r :: rest)
    (h0 : s.wordIndex = 0) (hpres : r.Presentable) (n : Nat) (hn : 2 * n ≤ r.payload.length) :
    ∃ i o, Host.Core.run Sys2Proof.core n s
      = .next { s with odeIn := i, odeOut := o, wordIndex := n, listing := s.listing ++ r.lines n } := by
  induction n with
  | zero =>
    refine ⟨s.odeIn, s.odeOut, ?_⟩
    have hrun : Host.Core.run Sys2Proof.core 0 s = .next s := rfl
    rw [hrun, HexRecord.lines_zero, List.append_nil, ← h0]
  | succ n ih =>
    obtain ⟨i, o, hrun⟩ := ih (by omega)
    obtain ⟨lo, hi, hb⟩ := HexRecord.exists_bytesAt hn
    have hstep := step_of_bytesAt
      (s := { s with odeIn := i, odeOut := o, wordIndex := n, listing := s.listing ++ r.lines n }) hsel hc hr hpres hb
    refine ⟨⟨assembleWord lo hi, nextPcAt (r.addressAt n)⟩, ode (assembleWord lo hi) (nextPcAt (r.addressAt n)),
      (run_succ_of_run hrun).trans (hstep.trans ?_)⟩
    rw [HexRecord.lines_succ, HexRecord.lineAt_of_bytesAt hb, ← List.append_assoc]
    rfl

end

/-! ### The statements -/

/-- Settles O44. Only a presentation stops a step, and the pending records' presentation stops exactly where their first record does. -/
theorem stepStopsOnlyOnAnUnpresentableRecord : Obligations.StepStopsOnlyOnAnUnpresentableRecord := by
  intro s
  rw [step_stops_iff, State.presentation_stops_iff]

/-- Settles O45. Each reason is what the record presents, whatever the word the environment stands at. -/
theorem unpresentableRecordsStopByName : Obligations.UnpresentableRecordsStopByName := by
  intro s r rest hsel hc hr
  have hp := State.presentation_of_records hc hr
  refine ⟨fun hwf ht hodd => ?_, fun hwf hlo hhi => ?_, fun hwf ht => ?_, fun hwf => ?_⟩
  · exact step_refuse hsel (hp.trans (HexRecord.presentation_of_odd_data hwf ht hodd))
  · exact step_refuse hsel (hp.trans (HexRecord.presentation_of_unhandled_type hwf hlo hhi))
  · exact step_refuse hsel (hp.trans (HexRecord.presentation_of_invalid_type hwf ht))
  · exact step_stop hsel (hp.trans (HexRecord.presentation_of_length_mismatch hwf))

/-- Settles O46. The step presents the word the two bytes assemble to; its number, its address and the next one are sums modulo 2^16. -/
theorem presentedWordIsLittleEndianWithNextPcAfterIt : Obligations.PresentedWordIsLittleEndianWithNextPcAfterIt := by
  intro s r rest lo hi hsel hc hr hpres hlo hhi
  have haddr := HexRecord.addressAt_toNat r s.wordIndex
  refine ⟨assembleWord lo hi, nextPcAt (r.addressAt s.wordIndex), r.addressAt s.wordIndex,
    assembleWord_toNat lo hi, ?_, haddr, ?_⟩
  · rw [nextPcAt_toNat, haddr]
    omega
  · exact step_of_bytesAt hsel hc hr hpres (HexRecord.bytesAt_eq_some_iff.2 ⟨hlo, hhi⟩)

/-- Settles O47. The record presents the end of the data; a complete stream and an empty one present nothing. -/
theorem endOfDataEndsTheStreamWithoutALine : Obligations.EndOfDataEndsTheStreamWithoutALine := by
  refine ⟨fun s r rest hsel hc hr hwf ht => ?_, fun s hsel hc => ?_, fun s hsel hr => ?_⟩
  · exact step_endOfData hsel
      ((State.presentation_of_records hc hr).trans (HexRecord.presentation_of_endOfData hwf ht))
  · exact step_nothing hsel (State.presentation_of_complete hc)
  · exact step_nothing hsel (State.presentation_of_no_records hr)

/-- Settles O48, by induction on the number of words presented; after the last one the record is exhausted. -/
theorem dataRecordIsListedWholeInWordOrder : Obligations.DataRecordIsListedWholeInWordOrder := by
  intro s r rest n hsel hc hr h0 hpres hn
  obtain ⟨i, o, hrun⟩ := run_lists_words hsel hc hr h0 hpres n hn
  exact ⟨_, hrun, rfl, rfl, rfl, rfl, rfl, rfl, rfl, fun hend => step_of_exhausted hsel hc hr hpres hend.ge⟩

/-- Settles O49. No address of the record passes 0xFFFF, so each is the plain sum, which grows with the word's index. -/
theorem recordLinesAscendInAddress : Obligations.RecordLinesAscendInAddress := by
  intro r n hn
  refine List.pairwise_map.2 (List.pairwise_lt_range.imp_of_mem fun {j k} hj hk hjk => ?_)
  have hj' := List.mem_range.1 hj
  have hk' := List.mem_range.1 hk
  rw [HexRecord.lineAt_address, HexRecord.lineAt_address, HexRecord.addressAt_toNat, HexRecord.addressAt_toNat]
  omega

end Sys2Proof.Machine
end

section
/-! PROOFS. The encoding (30_encoding.md): the rows of the opcode map, which row a word lies in, what a word of a row decodes to, and from
these the statements that decoding and encoding agree and that the eight unknown patterns give the unknown outcome. -/

namespace Sys2Proof

open Sys2Proof.Machine

/-- The instruction with every operand read from its field of the word (R32). -/
def Instr.withFieldsOf (w : Word16) : Instr → Instr
  | .ldrImm _ _ _ => .ldrImm (fieldRd w) (fieldRn w) (fieldImm3 w)
  | .ldrReg _ _ _ => .ldrReg (fieldRd w) (fieldRn w) (fieldRm w)
  | .strImm _ _ _ => .strImm (fieldRd w) (fieldRn w) (fieldImm3 w)
  | .strReg _ _ _ => .strReg (fieldRd w) (fieldRn w) (fieldRm w)
  | .bzs _ => .bzs (fieldOff10 w)
  | .bzc _ => .bzc (fieldOff10 w)
  | .bcs _ => .bcs (fieldOff10 w)
  | .bcc _ => .bcc (fieldOff10 w)
  | .bge _ => .bge (fieldOff10 w)
  | .blt _ => .blt (fieldOff10 w)
  | .b _ => .b (fieldOff10 w)
  | .bl _ => .bl (fieldOff10 w)
  | .movImm _ _ => .movImm (fieldRd w) (fieldImm8 w)
  | .movt _ _ => .movt (fieldRd w) (fieldImm8 w)
  | .addReg _ _ _ => .addReg (fieldRd w) (fieldRn w) (fieldRm w)
  | .subReg _ _ _ => .subReg (fieldRd w) (fieldRn w) (fieldRm w)
  | .adc _ _ _ => .adc (fieldRd w) (fieldRn w) (fieldRm w)
  | .sbc _ _ _ => .sbc (fieldRd w) (fieldRn w) (fieldRm w)
  | .addImm _ _ _ => .addImm (fieldRd w) (fieldRn w) (fieldImm4 w)
  | .subImm _ _ _ => .subImm (fieldRd w) (fieldRn w) (fieldImm4 w)
  | .movReg _ _ => .movReg (fieldRd w) (fieldRm w)
  | .mvn _ _ => .mvn (fieldRd w) (fieldRm w)
  | .movs _ _ => .movs (fieldRd w) (fieldRm w)
  | .msrCspr _ => .msrCspr (fieldRm w)
  | .msrSpsr _ => .msrSpsr (fieldRm w)
  | .mrsCspr _ => .mrsCspr (fieldRd w)
  | .mrsSpsr _ => .mrsSpsr (fieldRd w)
  | .cmp _ _ => .cmp (fieldRn w) (fieldRm w)
  | .andReg _ _ _ => .andReg (fieldRd w) (fieldRn w) (fieldRm w)
  | .orr _ _ _ => .orr (fieldRd w) (fieldRn w) (fieldRm w)
  | .eor _ _ _ => .eor (fieldRd w) (fieldRn w) (fieldRm w)
  | .lsl _ _ _ => .lsl (fieldRd w) (fieldRn w) (fieldShamt w)
  | .lsr _ _ _ => .lsr (fieldRd w) (fieldRn w) (fieldShamt w)
  | i => i

/-- The word lies in the instruction's row of the opcode map (30_encoding.md section 6). -/
def Instr.RowHas (i : Instr) (w : Word16) : Prop := ∃ p, i.pattern = some p ∧ inRow w p.bits p.mask

/-! ### Fields placed in a word -/

theorem place_getLsbD {n : Nat} (v : BitVec n) (lo k : Nat) :
    (place v lo).getLsbD k = (decide (k < 16) && decide (lo ≤ k) && v.getLsbD (k - lo)) := by
  have hlt : k < 16 → k - lo < 16 := by omega
  rw [place, BitVec.getLsbD_shiftLeft, BitVec.getLsbD_setWidth]
  by_cases hk : k < 16 <;> by_cases hlo : lo ≤ k <;> simp [hk, hlo, hlt]

/-- A slice put back at its place is the word with every other bit cleared. -/
theorem place_extract (w : Word16) (lo n : Nat) :
    place (w.extractLsb' lo n) lo = w &&& place (BitVec.allOnes n) lo := by
  apply BitVec.eq_of_getLsbD_eq
  intro k hk
  rw [BitVec.getLsbD_and, place_getLsbD, place_getLsbD, BitVec.getLsbD_extractLsb', BitVec.getLsbD_allOnes]
  by_cases hlo : lo ≤ k
  · simp [hk, hlo, Bool.and_comm]
  · simp [hlo]

/-- `RN` takes three bits of the word, though a register index has four. -/
theorem place_fieldRn (w : Word16) : place (fieldRn w) 4 = w &&& 0x0070#16 := by
  rw [Laws.EncodingFitsRow.place_rn (fitsRn_fieldRn w), fieldRn_eq, BitVec.setWidth_setWidth_of_le _ (by omega),
    BitVec.setWidth_eq, place_extract]
  rfl

section
variable {n m lo lo' : Nat} (v : BitVec n)

theorem extract_place_same (h : lo + n ≤ 16) : (place v lo).extractLsb' lo n = v := by
  apply BitVec.eq_of_getLsbD_eq
  intro k hk
  have hlt : lo + k < 16 := by omega
  rw [BitVec.getLsbD_extractLsb', place_getLsbD]
  simp [hk, hlt]

theorem extract_place_disjoint (h : lo' + m ≤ lo ∨ lo + n ≤ lo') : (place v lo).extractLsb' lo' m = 0#m := by
  apply BitVec.eq_of_getLsbD_eq
  intro k hk
  rw [BitVec.getLsbD_extractLsb', place_getLsbD, BitVec.getLsbD_zero]
  rcases h with h | h
  · have hlo : ¬ lo ≤ lo' + k := by omega
    simp [hlo]
  · simp [BitVec.getLsbD_of_ge v (lo' + k - lo) (by omega)]
end

/-! ### The rows of the opcode map -/

/-- Any two of the 41 rows differ in a bit that both fix (R42). -/
theorem opcodeRows_disjoint :
    ∀ p ∈ opcodeRows, ∀ q ∈ opcodeRows, p.bits &&& q.mask = q.bits &&& p.mask → p = q := by decide

theorem opcodeRows_nodup : opcodeRows.Nodup := by decide

/-- Every row fixes the class. -/
theorem opcodeRows_mask_cls : ∀ p ∈ opcodeRows, p.mask.extractLsb' 13 3 = BitVec.allOnes 3 := by decide

theorem pattern_mem_opcodeRows {i : Instr} {p : Pattern} (h : i.pattern = some p) : p ∈ opcodeRows := by
  cases i with
  | bfGet | bfSet => cases h
  | _ => cases h; decide

section
variable {w : Word16} {p q : Pattern}

theorem Pattern.covers_iff : p.covers w = true ↔ inRow w p.bits p.mask := decide_eq_true_iff

theorem row_unique (hp : p ∈ opcodeRows) (hq : q ∈ opcodeRows) (hwp : inRow w p.bits p.mask)
    (hwq : inRow w q.bits q.mask) : p = q := by
  refine opcodeRows_disjoint p hp q hq ?_
  rw [← hwp, ← hwq, BitVec.and_assoc, BitVec.and_assoc, BitVec.and_comm p.mask]

theorem cls_of_row (hp : p ∈ opcodeRows) (hw : inRow w p.bits p.mask) :
    w.extractLsb' 13 3 = p.bits.extractLsb' 13 3 := by
  rw [← hw, BitVec.extractLsb'_and, opcodeRows_mask_cls p hp, BitVec.and_allOnes]

/-- A row that holds a word is the only one that does (R42). -/
theorem filter_covers (hp : p ∈ opcodeRows) (hw : inRow w p.bits p.mask) :
    opcodeRows.filter (fun q => q.covers w) = [p] := by
  have hiff : ∀ q ∈ opcodeRows, q.covers w = (q == p) := fun q hq => by
    rw [Bool.eq_iff_iff, Pattern.covers_iff, beq_iff_eq]
    exact ⟨fun hwq => row_unique hq hp hwq hw, fun h => h ▸ hw⟩
  rw [List.filter_congr hiff, List.filter_beq, List.count_eq_one_of_mem opcodeRows_nodup hp, List.replicate_one]
end

/-! ### A word in a row decodes to the row's instruction, with its operands read from the word -/

/-- The rows are what the decoder tells apart (R63): a row fixes the class and every selector bit that its branch of the dispatch tree
reads. -/
theorem decodeWord_of_row {i : Instr} {w : Word16} (h : i.RowHas w) : decodeWord w = i.withFieldsOf w := by
  obtain ⟨p, hp, hw⟩ := h
  have hbit := bit_of_row hw
  rw [decodeWord, fieldCls_eq, cls_of_row (pattern_mem_opcodeRows hp) hw]
  cases i with
  | bfGet | bfSet => cases hp
  | ldrImm | unknownX1 =>
    cases hp
    change decodeLoad w = _
    rw [decodeLoad_bits, hbit 12 rfl, hbit 11 rfl, hbit 10 rfl]
    rfl
  | ldrReg | unknownX2 | unknownX3 =>
    cases hp
    change decodeLoad w = _
    rw [decodeLoad_bits, hbit 12 rfl, hbit 11 rfl]
    rfl
  | strImm | unknownX4 =>
    cases hp
    change decodeStore w = _
    rw [decodeStore_bits, hbit 12 rfl, hbit 11 rfl, hbit 10 rfl]
    rfl
  | strReg | unknownX5 | unknownX6 =>
    cases hp
    change decodeStore w = _
    rw [decodeStore_bits, hbit 12 rfl, hbit 11 rfl]
    rfl
  | bzs | bzc | bcs | bcc | bge | blt | b | bl =>
    cases hp
    change decodeBranch w = _
    rw [decodeBranch_bits, hbit 12 rfl, hbit 11 rfl, hbit 10 rfl]
    rfl
  | movImm | movt =>
    cases hp
    change decodeMoveImmediate w = _
    rw [decodeMoveImmediate_bits, hbit 12 rfl]
    rfl
  | addReg | subReg | adc | sbc =>
    cases hp
    change decodeArithRegister w = _
    rw [decodeArithRegister_bits, hbit 12 rfl, hbit 11 rfl]
    rfl
  | addImm | subImm | cmp =>
    cases hp
    change decodeArithImmCompareHi w = _
    rw [decodeArithImmCompareHi_bits, hbit 12 rfl, hbit 11 rfl]
    rfl
  | movReg | mvn | movs | unknownX7 | msrCspr | msrSpsr | mrsCspr | mrsSpsr =>
    cases hp
    change decodeArithImmCompareHi w = _
    rw [decodeArithImmCompareHi_bits, hbit 12 rfl, hbit 11 rfl, decodeHi_bits, hbit 6 rfl, hbit 5 rfl, hbit 4 rfl]
    rfl
  | andReg | orr | eor | unknownX8 =>
    cases hp
    change decodeLogical w = _
    rw [decodeLogical_bits, hbit 12 rfl, hbit 11 rfl]
    rfl
  | lsl | lsr =>
    cases hp
    change decodeShift w = _
    rw [decodeShift_bits, hbit 12 rfl]
    rfl

/-! ### Every word lies in the row of the instruction it decodes to

The selectors' values are the word under their mask; the row that the decoder picks for them fixes no bit beyond. -/

section
variable {w : Word16} {c : BitVec 3}

/-- A word in a row lies in the row of any mask within the first. -/
theorem inRow_coarser {v bits m m' : Word16} (h : inRow w v m) (hm : m &&& m' = m') (hb : v &&& m' = bits) :
    inRow w bits m' := by
  rw [inRow, ← hm, ← BitVec.and_assoc, h, hb]

theorem inRow_sub3 {s : BitVec 3} (hc : fieldCls w = c) (hs : fieldSub3 w = s) :
    inRow w (place c 13 ||| place s 10) 0xFC00#16 := by
  rw [← hc, ← hs, fieldCls_eq, fieldSub3_eq, place_extract, place_extract, ← BitVec.and_or_distrib_left]
  rfl

theorem inRow_sub2 {s : BitVec 2} (hc : fieldCls w = c) (hs : fieldSub2 w = s) :
    inRow w (place c 13 ||| place s 11) 0xF800#16 := by
  rw [← hc, ← hs, fieldCls_eq, fieldSub2_eq, place_extract, place_extract, ← BitVec.and_or_distrib_left]
  rfl

theorem inRow_sub1 {s : BitVec 1} (hc : fieldCls w = c) (hs : fieldSub1 w = s) :
    inRow w (place c 13 ||| place s 12) 0xF000#16 := by
  rw [← hc, ← hs, fieldCls_eq, fieldSub1_eq, place_extract, place_extract, ← BitVec.and_or_distrib_left]
  rfl

theorem inRow_fn3 {s : BitVec 2} {f : BitVec 3} (hc : fieldCls w = c) (hs : fieldSub2 w = s) (hf : fieldFn3 w = f) :
    inRow w (place c 13 ||| place s 11 ||| place f 4) 0xF870#16 := by
  rw [← hc, ← hs, ← hf, fieldCls_eq, fieldSub2_eq, fieldFn3_eq, place_extract, place_extract, place_extract,
    ← BitVec.and_or_distrib_left, ← BitVec.and_or_distrib_left]
  rfl

theorem decodeLoad_row (hc : fieldCls w = 0#3) : (decodeLoad w).RowHas w := by
  rcases bitVec3_cases (fieldSub3 w) with h | h | h | h | h | h | h | h <;> rw [decodeLoad, h] <;>
    exact ⟨_, rfl, inRow_coarser (inRow_sub3 hc h) rfl rfl⟩

theorem decodeStore_row (hc : fieldCls w = 1#3) : (decodeStore w).RowHas w := by
  rcases bitVec3_cases (fieldSub3 w) with h | h | h | h | h | h | h | h <;> rw [decodeStore, h] <;>
    exact ⟨_, rfl, inRow_coarser (inRow_sub3 hc h) rfl rfl⟩

theorem decodeBranch_row (hc : fieldCls w = 2#3) : (decodeBranch w).RowHas w := by
  rcases bitVec3_cases (fieldSub3 w) with h | h | h | h | h | h | h | h <;> rw [decodeBranch, h] <;>
    exact ⟨_, rfl, inRow_sub3 hc h⟩

theorem decodeMoveImmediate_row (hc : fieldCls w = 3#3) : (decodeMoveImmediate w).RowHas w := by
  rcases bitVec1_cases (fieldSub1 w) with h | h <;> rw [decodeMoveImmediate, h] <;>
    exact ⟨_, rfl, inRow_sub1 hc h⟩

theorem decodeArithRegister_row (hc : fieldCls w = 4#3) : (decodeArithRegister w).RowHas w := by
  rcases bitVec2_cases (fieldSub2 w) with h | h | h | h <;> rw [decodeArithRegister, h] <;>
    exact ⟨_, rfl, inRow_sub2 hc h⟩

theorem decodeHi_row (hc : fieldCls w = 5#3) (hs : fieldSub2 w = 2#2) : (decodeHi w).RowHas w := by
  rcases bitVec3_cases (fieldFn3 w) with h | h | h | h | h | h | h | h <;> rw [decodeHi, h] <;>
    exact ⟨_, rfl, inRow_fn3 hc hs h⟩

theorem decodeArithImmCompareHi_row (hc : fieldCls w = 5#3) : (decodeArithImmCompareHi w).RowHas w := by
  rcases bitVec2_cases (fieldSub2 w) with h | h | h | h <;> rw [decodeArithImmCompareHi, h]
  case inr.inr.inl => exact decodeHi_row hc h
  all_goals exact ⟨_, rfl, inRow_sub2 hc h⟩

theorem decodeLogical_row (hc : fieldCls w = 6#3) : (decodeLogical w).RowHas w := by
  rcases bitVec2_cases (fieldSub2 w) with h | h | h | h <;> rw [decodeLogical, h] <;>
    exact ⟨_, rfl, inRow_sub2 hc h⟩

theorem decodeShift_row (hc : fieldCls w = 7#3) : (decodeShift w).RowHas w := by
  rcases bitVec1_cases (fieldSub1 w) with h | h <;> rw [decodeShift, h] <;>
    exact ⟨_, rfl, inRow_sub1 hc h⟩
end

/-- Every word lies in the row of the instruction it decodes to (R42). -/
theorem decodeWord_row (w : Word16) : (decodeWord w).RowHas w := by
  rcases bitVec3_cases (fieldCls w) with hc | hc | hc | hc | hc | hc | hc | hc <;> rw [decodeWord, hc]
  · exact decodeLoad_row hc
  · exact decodeStore_row hc
  · exact decodeBranch_row hc
  · exact decodeMoveImmediate_row hc
  · exact decodeArithRegister_row hc
  · exact decodeArithImmCompareHi_row hc
  · exact decodeLogical_row hc
  · exact decodeShift_row hc

theorem withFieldsOf_decodeWord (w : Word16) : (decodeWord w).withFieldsOf w = decodeWord w :=
  (decodeWord_of_row (decodeWord_row w)).symm

/-! ### The operands of an encoded instruction -/

section
variable {n : Nat} {bits : Word16} {rd rn : RegIdx} {x : BitVec n}

theorem fieldRn_of_extract {w : Word16} (hrn : fitsRn rn = true) (h : w.extractLsb' 4 3 = rn.setWidth 3) :
    fieldRn w = rn := by
  have hlt : rn.toNat < 8 := of_decide_eq_true hrn
  apply BitVec.eq_of_toNat_eq
  rw [fieldRn_eq, h, BitVec.toNat_setWidth, BitVec.toNat_setWidth]
  omega

theorem fieldRd_encode3 (hb : bits.extractLsb' 0 4 = 0#4) : fieldRd (encode3 bits rd rn x) = rd := by
  simp [fieldRd_eq, encode3, BitVec.extractLsb'_or, extract_place_same, extract_place_disjoint, hb]

theorem fieldRn_encode3 (hrn : fitsRn rn = true) (hb : bits.extractLsb' 4 3 = 0#3) :
    fieldRn (encode3 bits rd rn x) = rn := by
  apply fieldRn_of_extract hrn
  rw [encode3, Laws.EncodingFitsRow.place_rn hrn]
  simp [BitVec.extractLsb'_or, extract_place_same, extract_place_disjoint, hb]

theorem extract_encode3 (hrn : fitsRn rn = true) (hn : n ≤ 5) (hb : bits.extractLsb' 7 n = 0#n) :
    (encode3 bits rd rn x).extractLsb' 7 n = x := by
  have hn' : 7 + n ≤ 16 := by omega
  rw [encode3, Laws.EncodingFitsRow.place_rn hrn]
  simp [BitVec.extractLsb'_or, extract_place_same, extract_place_disjoint, hb, hn']
end

theorem fieldRn_encode_cmp {rn rm : RegIdx} (hrn : fitsRn rn = true) :
    fieldRn (0xB800#16 ||| place rm 7 ||| place rn 4) = rn := by
  apply fieldRn_of_extract hrn
  rw [Laws.EncodingFitsRow.place_rn hrn]
  simp [BitVec.extractLsb'_or, extract_place_same, extract_place_disjoint]

theorem fieldRm_encode_cmp {rn rm : RegIdx} (hrn : fitsRn rn = true) :
    fieldRm (0xB800#16 ||| place rm 7 ||| place rn 4) = rm := by
  rw [Laws.EncodingFitsRow.place_rn hrn, fieldRm_eq]
  simp [BitVec.extractLsb'_or, extract_place_same, extract_place_disjoint]

/-- The lemmas of Laws/PerInstr.lean for every instruction. -/
theorem encode_fits_row : ∀ i : Instr, Laws.EncodingFitsRow.Statement i
  | .ldrImm rd rn imm3 => Laws.EncodingFitsRow.ldrImm rd rn imm3
  | .ldrReg rd rn rm => Laws.EncodingFitsRow.ldrReg rd rn rm
  | .strImm rd rn imm3 => Laws.EncodingFitsRow.strImm rd rn imm3
  | .strReg rd rn rm => Laws.EncodingFitsRow.strReg rd rn rm
  | .bzs off10 => Laws.EncodingFitsRow.bzs off10
  | .bzc off10 => Laws.EncodingFitsRow.bzc off10
  | .bcs off10 => Laws.EncodingFitsRow.bcs off10
  | .bcc off10 => Laws.EncodingFitsRow.bcc off10
  | .bge off10 => Laws.EncodingFitsRow.bge off10
  | .blt off10 => Laws.EncodingFitsRow.blt off10
  | .b off10 => Laws.EncodingFitsRow.b off10
  | .bl off10 => Laws.EncodingFitsRow.bl off10
  | .movImm rd imm8 => Laws.EncodingFitsRow.movImm rd imm8
  | .movt rd imm8 => Laws.EncodingFitsRow.movt rd imm8
  | .addReg rd rn rm => Laws.EncodingFitsRow.addReg rd rn rm
  | .subReg rd rn rm => Laws.EncodingFitsRow.subReg rd rn rm
  | .adc rd rn rm => Laws.EncodingFitsRow.adc rd rn rm
  | .sbc rd rn rm => Laws.EncodingFitsRow.sbc rd rn rm
  | .addImm rd rn imm4 => Laws.EncodingFitsRow.addImm rd rn imm4
  | .subImm rd rn imm4 => Laws.EncodingFitsRow.subImm rd rn imm4
  | .movReg rd rm => Laws.EncodingFitsRow.movReg rd rm
  | .mvn rd rm => Laws.EncodingFitsRow.mvn rd rm
  | .movs rd rm => Laws.EncodingFitsRow.movs rd rm
  | .msrCspr rm => Laws.EncodingFitsRow.msrCspr rm
  | .msrSpsr rm => Laws.EncodingFitsRow.msrSpsr rm
  | .mrsCspr rd => Laws.EncodingFitsRow.mrsCspr rd
  | .mrsSpsr rd => Laws.EncodingFitsRow.mrsSpsr rd
  | .cmp rn rm => Laws.EncodingFitsRow.cmp rn rm
  | .andReg rd rn rm => Laws.EncodingFitsRow.andReg rd rn rm
  | .orr rd rn rm => Laws.EncodingFitsRow.orr rd rn rm
  | .eor rd rn rm => Laws.EncodingFitsRow.eor rd rn rm
  | .lsl rd rn shamt => Laws.EncodingFitsRow.lsl rd rn shamt
  | .lsr rd rn shamt => Laws.EncodingFitsRow.lsr rd rn shamt
  | .unknownX1 => Laws.EncodingFitsRow.unknownX1
  | .unknownX2 => Laws.EncodingFitsRow.unknownX2
  | .unknownX3 => Laws.EncodingFitsRow.unknownX3
  | .unknownX4 => Laws.EncodingFitsRow.unknownX4
  | .unknownX5 => Laws.EncodingFitsRow.unknownX5
  | .unknownX6 => Laws.EncodingFitsRow.unknownX6
  | .unknownX7 => Laws.EncodingFitsRow.unknownX7
  | .unknownX8 => Laws.EncodingFitsRow.unknownX8
  | .bfGet => Laws.EncodingFitsRow.bfGet
  | .bfSet => Laws.EncodingFitsRow.bfSet

theorem encode_row {i : Instr} {w : Word16} (hwf : i.wf = true) (he : encode i = .word w) : i.RowHas w := by
  have hfits := encode_fits_row i hwf
  rw [he] at hfits
  cases hp : i.pattern with
  | none => simp [hp] at hfits
  | some p => exact ⟨p, hp, by simpa [hp] using hfits⟩

theorem decodeBfOp_of_encode {i : Instr} {op : BitVec 1} (he : encode i = .bfOp op) : decodeBfOp op = i := by
  cases i with
  | bfGet | bfSet => cases he; rfl
  | _ => cases he

/-- Each operand stands where its field is read (R31, R32). -/
theorem withFieldsOf_encode {i : Instr} {w : Word16} (hwf : i.wf = true) (he : encode i = .word w) :
    i.withFieldsOf w = i := by
  cases i with
  | ldrImm | strImm =>
    cases he
    simp [Instr.withFieldsOf, fieldRd_encode3, fieldRn_encode3 hwf, fieldImm3_eq, extract_encode3 hwf]
  | ldrReg | strReg | addReg | subReg | adc | sbc | andReg | orr | eor =>
    cases he
    simp [Instr.withFieldsOf, fieldRd_encode3, fieldRn_encode3 hwf, fieldRm_eq, extract_encode3 hwf]
  | addImm | subImm =>
    cases he
    simp [Instr.withFieldsOf, fieldRd_encode3, fieldRn_encode3 hwf, fieldImm4_eq, extract_encode3 hwf]
  | lsl | lsr =>
    cases he
    simp [Instr.withFieldsOf, fieldRd_encode3, fieldRn_encode3 hwf, fieldShamt_eq, extract_encode3 hwf]
  | bzs | bzc | bcs | bcc | bge | blt | b | bl =>
    cases he
    simp [Instr.withFieldsOf, fieldOff10_eq, BitVec.extractLsb'_or, extract_place_same]
  | movImm | movt =>
    cases he
    simp [Instr.withFieldsOf, fieldRd_eq, fieldImm8_eq, BitVec.extractLsb'_or, extract_place_same,
      extract_place_disjoint]
  | movReg | mvn | movs | msrCspr | msrSpsr | mrsCspr | mrsSpsr =>
    cases he
    simp [Instr.withFieldsOf, fieldRd_eq, fieldRm_eq, BitVec.extractLsb'_or, extract_place_same,
      extract_place_disjoint]
  | cmp rn rm =>
    cases he
    rw [Instr.withFieldsOf, fieldRn_encode_cmp hwf, fieldRm_encode_cmp hwf]
  | bfGet | bfSet => cases he
  | _ => rfl

/-! ### Re-encoding -/

theorem or_and_of_row {w bits m : Word16} (hw : inRow w bits m) (f : Word16) :
    bits ||| w &&& f = w &&& (m ||| f) := by
  rw [← hw, ← BitVec.and_or_distrib_left]

/-- Writing the three fields of a word back over its row's bits clears every bit that is in neither. -/
theorem encode3_of_row {n : Nat} {w bits m : Word16} (hw : inRow w bits m) :
    encode3 bits (fieldRd w) (fieldRn w) (w.extractLsb' 7 n)
      = w &&& (m ||| place (BitVec.allOnes n) 7 ||| 0x0070#16 ||| 0x000F#16) := by
  rw [encode3, place_extract, place_fieldRn, fieldRd_eq, place_extract, or_and_of_row hw,
    ← BitVec.and_or_distrib_left, ← BitVec.and_or_distrib_left]
  rfl

/-- Encoding what was read from a word of the row keeps exactly the bits the row fixes and the bits of its fields (R39). -/
theorem encode_withFieldsOf {i : Instr} {w : Word16} (h : i.RowHas w) :
    encode (i.withFieldsOf w) = .word (w &&& i.careMask) := by
  obtain ⟨p, hp, hw⟩ := h
  cases i with
  | ldrImm | strImm =>
    cases hp
    rw [Instr.withFieldsOf, encode, fieldImm3_eq, encode3_of_row hw]
    rfl
  | ldrReg | strReg | addReg | subReg | adc | sbc | andReg | orr | eor =>
    cases hp
    rw [Instr.withFieldsOf, encode, fieldRm_eq, encode3_of_row hw]
    rfl
  | addImm | subImm =>
    cases hp
    rw [Instr.withFieldsOf, encode, fieldImm4_eq, encode3_of_row hw]
    rfl
  | lsl | lsr =>
    cases hp
    rw [Instr.withFieldsOf, encode, fieldShamt_eq, encode3_of_row hw]
    rfl
  | bzs | bzc | bcs | bcc | bge | blt | b | bl =>
    cases hp
    rw [Instr.withFieldsOf, encode, fieldOff10_eq, place_extract, or_and_of_row hw]
    rfl
  | movImm | movt =>
    cases hp
    rw [Instr.withFieldsOf, encode, fieldImm8_eq, fieldRd_eq, place_extract, place_extract, or_and_of_row hw,
      ← BitVec.and_or_distrib_left]
    rfl
  | movReg | mvn | movs =>
    cases hp
    rw [Instr.withFieldsOf, encode, fieldRm_eq, fieldRd_eq, place_extract, place_extract, or_and_of_row hw,
      ← BitVec.and_or_distrib_left]
    rfl
  | msrCspr | msrSpsr =>
    cases hp
    rw [Instr.withFieldsOf, encode, fieldRm_eq, place_extract, or_and_of_row hw]
    rfl
  | mrsCspr | mrsSpsr =>
    cases hp
    rw [Instr.withFieldsOf, encode, fieldRd_eq, place_extract, or_and_of_row hw]
    rfl
  | cmp =>
    cases hp
    rw [Instr.withFieldsOf, encode, fieldRm_eq, place_extract, place_fieldRn, or_and_of_row hw,
      ← BitVec.and_or_distrib_left]
    rfl
  | bfGet | bfSet => cases hp
  | _ =>
    cases hp
    exact congrArg Code.word hw.symm

theorem encode_decodeWord (w : Word16) : encode (decodeWord w) = .word (w &&& (decodeWord w).careMask) := by
  rw [← encode_withFieldsOf (decodeWord_row w), withFieldsOf_decodeWord]

/-- No row ignores a bit that it fixes. -/
theorem mask_and_careMask {i : Instr} {p : Pattern} (hp : i.pattern = some p) : i.careMask &&& p.mask = p.mask := by
  cases i with
  | bfGet | bfSet => cases hp
  | _ => cases hp; rw [Instr.careMask]; decide

/-- A row is the row of every word that differs in ignored bits only. -/
theorem rowHas_of_careMask {i : Instr} {w v : Word16} (h : i.RowHas w) (hwv : w &&& i.careMask = v &&& i.careMask) :
    i.RowHas v := by
  obtain ⟨p, hp, hw⟩ := h
  refine ⟨p, hp, inRow_coarser hwv.symm (mask_and_careMask hp) ?_⟩
  rw [BitVec.and_assoc, mask_and_careMask hp, hw]

theorem wf_withFieldsOf (i : Instr) (w : Word16) : (i.withFieldsOf w).wf = true := by
  cases i with
  | ldrImm | ldrReg | strImm | strReg | addReg | subReg | adc | sbc | addImm | subImm | cmp | andReg | orr | eor
  | lsl | lsr => exact fitsRn_fieldRn w
  | _ => rfl

/-! ### The unknown patterns -/

theorem unknownOutcome_eq (c : BitVec 3) :
    unknownOutcome c = ⟨c, .unknown, .none, 0#2, unused, unused, unused, true⟩ := rfl

section
variable {s : State} {out : OdeOut}

theorem next_driveOde_inj {out' : OdeOut}
    (h : (.next (s.driveOde out) : Host.Outcome State Fault Refusal) = .next (s.driveOde out')) : out = out' :=
  congrArg State.odeOut (Host.Outcome.next.inj h)

/-- The meaning of an instruction drives the unknown outcome, with the class that the row fixes, where its row is one of the eight
patterns, and a mnemonic's outputs everywhere else. -/
theorem exec_unknown_or_known {i : Instr} {p : Pattern} (hp : i.pattern = some p)
    (he : exec i s = .next (s.driveOde out)) :
    (p ∈ unknownPatterns ∧ out = unknownOutcome (p.bits.extractLsb' 13 3))
      ∨ (p ∉ unknownPatterns ∧ out.unknown = false) := by
  cases i with
  | bfGet | bfSet => cases hp
  | unknownX1 | unknownX2 | unknownX3 | unknownX4 | unknownX5 | unknownX6 | unknownX7 | unknownX8 =>
    cases hp
    exact .inl ⟨by decide, (next_driveOde_inj he).symm⟩
  | _ =>
    cases hp
    refine .inr ⟨by decide, ?_⟩
    rw [← next_driveOde_inj he]
    rfl
end

/-! ### The statements -/

/-- Settles O1. A well-formed instruction's word lies in its row, so it decodes to that row's instruction, with the
operands that were placed. -/
theorem encodeThenDecodeGivesTheInstructionBack : Obligations.EncodeThenDecodeGivesTheInstructionBack := by
  intro i hwf
  cases he : encode i with
  | word w => exact (decodeWord_of_row (encode_row hwf he)).trans (withFieldsOf_encode hwf he)
  | bfOp op => exact decodeBfOp_of_encode he

/-- Settles O2. What a word decodes to has its operands read from the word, and the field `RN` has three bits. -/
theorem decodedInstructionsAreWellFormed : Obligations.DecodedInstructionsAreWellFormed := by
  intro c
  cases c with
  | word w =>
    rw [decode, ← withFieldsOf_decodeWord]
    exact wf_withFieldsOf _ w
  | bfOp op => rcases bitVec1_cases op with rfl | rfl <;> rfl

/-- Settles O3. A word lies in the row of the instruction it decodes to, and no two rows share a word. -/
theorem eachWordLiesInExactlyOneOpcodeRow : Obligations.EachWordLiesInExactlyOneOpcodeRow := by
  intro w
  obtain ⟨p, hp, hw⟩ := decodeWord_row w
  exact ⟨p, filter_covers (pattern_mem_opcodeRows hp) hw, hp⟩

/-- Settles O4. The word of the re-encoded instruction is its row's bits and its fields. A word that differs in ignored bits lies in the
same row, so both words re-encode to one word, which decodes to what either does. -/
theorem reencodingClearsExactlyTheIgnoredBits : Obligations.ReencodingClearsExactlyTheIgnoredBits := by
  refine ⟨encode_decodeWord, fun w v hwv => ?_⟩
  have hw := decodeWord_row w
  have hv := rowHas_of_careMask hw hwv
  have henc : encode (decodeWord w) = encode (decodeWord v) := by
    rw [encode_decodeWord w, hwv, ← encode_withFieldsOf hv, ← decodeWord_of_row hv]
  have hback (u : Word16) : decode (encode (decodeWord u)) = decodeWord u :=
    encodeThenDecodeGivesTheInstructionBack _ (decodedInstructionsAreWellFormed (.word u))
  rw [← hback w, henc, hback v]

/-- Settles O20. The outputs are those of the decoded instruction, which is unknown exactly where its row, the only one that holds the
word, is among the eight patterns. -/
theorem unknownExactlyOnTheEightPatterns : Obligations.UnknownExactlyOnTheEightPatterns := by
  intro s hs
  refine ⟨_, step_ode hs, ?_⟩
  obtain ⟨p, hp, hw⟩ := decodeWord_row s.odeIn.word
  have hmem := pattern_mem_opcodeRows hp
  obtain ⟨hunk, hout⟩ | ⟨hknown, hout⟩ := exec_unknown_or_known hp (exec_decodeWord s.odeIn.word s)
  · rw [hout, ← cls_of_row hmem hw, unknownOutcome_eq]
    exact ⟨iff_of_true rfl ⟨p, hunk, Pattern.covers_iff.2 hw⟩, fun _ => rfl⟩
  · have hnone : ¬ ∃ q ∈ unknownPatterns, q.covers s.odeIn.word = true := fun ⟨q, hq, hqw⟩ =>
      hknown (row_unique hmem (List.mem_append_right _ hq) hw (Pattern.covers_iff.1 hqw) ▸ hq)
    simp [hout, hnone]

/-- Settles O28. Each meaning drives the unknown outcome of the class it is given. -/
theorem execOfUnknownPatternsCompletes : Obligations.ExecOfUnknownPatternsCompletes := by
  intro s
  simp only [← unknownOutcome_eq]
  exact ⟨rfl, rfl, rfl, rfl, rfl, rfl, rfl, rfl⟩

end Sys2Proof
end

section
/-! PROOFS. The bit-field unit (40_bitfield.md): what GET and SET make of every bit, when the position check fails, and from
these the statements about the unit and about the words that select an instruction. -/

namespace Sys2Proof.Machine

/-! ### GET and SET bit by bit, at legal positions (R52, R54)

A result is determined by its bits, so each operation is characterised once by an `↔` that speaks of every bit; the statements
about values follow by comparing bits. -/

/-- A one-bit value as a word, put at position `n`. -/
theorem bit_shiftLeft_getLsbD (b : Bool) (n i : Nat) :
    ((if b then 1#32 else 0#32) <<< n).getLsbD i = (decide (i < 32) && decide (i = n) && b) := by
  cases b
  · simp
  · rw [Bool.eq_iff_iff]
    simp [BitVec.getLsbD_shiftLeft]
    omega

theorem mask_toNat {n : Nat} (h : n ≤ 32) : (mask n).toNat = 2 ^ n - 1 := by
  have hle : 2 ^ n ≤ 2 ^ 32 := Nat.pow_le_pow_right (by decide) h
  rw [mask, BitVec.toNat_ofNat, Nat.mod_eq_of_lt (by omega)]

/-- The bits SET clears: those of the field below `msp`, and bit `msp` itself only under the OPEN alternative (C2). -/
theorem clearedBits_getLsbD {top : SetTop} {msp lsp : Nat} (hlo : lsp ≤ msp) (hhi : msp ≤ 31) (i : Nat) :
    (clearedBits top msp lsp).getLsbD i = decide (lsp ≤ i ∧ i < msp ∨ top = .clear ∧ i = msp) := by
  rw [Bool.eq_iff_iff]
  cases top <;> simp [clearedBits, BitVec.getLsbD_shiftLeft, mask_getLsbD] <;> omega

section
variable {v x r g : Word32} {msp lsp : Nat} (hlo : lsp ≤ msp) (hhi : msp ≤ 31)
include hlo hhi

/-- GET answers the word whose bits are the field's, and no other. -/
theorem getBits_eq_ok_iff :
    getBits v msp lsp = .ok g ↔ ∀ i, g.getLsbD i = (decide (lsp + i ≤ msp) && v.getLsbD (lsp + i)) := by
  have hbits (i : Nat) : ((v >>> lsp) &&& mask (msp - lsp + 1)).getLsbD i
      = (decide (lsp + i ≤ msp) && v.getLsbD (lsp + i)) := by
    have hwidth : (i < 32 ∧ i < msp - lsp + 1) ↔ lsp + i ≤ msp := by omega
    rw [BitVec.getLsbD_and, BitVec.getLsbD_ushiftRight, mask_getLsbD, ← Bool.decide_and, Bool.and_comm]
    simp only [hwidth]
  rw [getBits_ok ((rangeOk_iff msp lsp).2 ⟨hlo, hhi⟩), Except.ok.injEq]
  constructor
  · rintro rfl
    exact hbits
  · intro h
    exact BitVec.eq_of_getLsbD_eq fun i _ => (hbits i).trans (h i).symm

/-- SET, under either reading of bit `msp`, answers the word with the new value's bits in the field below `msp` and the old
value's elsewhere, but for a cleared bit `msp`. -/
theorem setBitsWith_eq_ok_iff {top : SetTop} :
    setBitsWith top v msp lsp x = .ok r ↔ ∀ i, r.getLsbD i
      = if lsp ≤ i ∧ i < msp then x.getLsbD (i - lsp) else v.getLsbD i && !decide (top = .clear ∧ i = msp) := by
  have hbits (i : Nat) : ((v &&& ~~~(clearedBits top msp lsp)) ||| ((x &&& mask (msp - lsp)) <<< lsp)).getLsbD i
      = if lsp ≤ i ∧ i < msp then x.getLsbD (i - lsp) else v.getLsbD i && !decide (top = .clear ∧ i = msp) := by
    simp only [BitVec.getLsbD_or, BitVec.getLsbD_and, BitVec.getLsbD_not, BitVec.getLsbD_shiftLeft,
      clearedBits_getLsbD hlo hhi, mask_getLsbD]
    by_cases hfield : lsp ≤ i ∧ i < msp
    · have h : i < 32 ∧ i - lsp < 32 ∧ i - lsp < msp - lsp := by omega
      simp [hfield, h]
    · have hout : i < lsp ∨ ¬ i - lsp < msp - lsp := by omega
      by_cases hi : i < 32
      · rcases hout with h | h <;> simp [hfield, hi, h]
      · simp [hfield, hi, BitVec.getLsbD_of_ge v i (by omega)]
  rw [setBitsWith_ok ((rangeOk_iff msp lsp).2 ⟨hlo, hhi⟩), Except.ok.injEq]
  constructor
  · rintro rfl
    exact hbits
  · intro h
    exact BitVec.eq_of_getLsbD_eq fun i _ => (hbits i).trans (h i).symm

/-- SET in the spec's machine, which keeps bit `msp` (D5). -/
theorem setBits_eq_ok_iff :
    setBits v msp lsp x = .ok r
      ↔ ∀ i, r.getLsbD i = if lsp ≤ i ∧ i < msp then x.getLsbD (i - lsp) else v.getLsbD i := by
  simp [setBits, setBitsWith_eq_ok_iff hlo hhi]

theorem exists_getBits (v : Word32) : ∃ g, getBits v msp lsp = .ok g :=
  ⟨_, getBits_ok ((rangeOk_iff msp lsp).2 ⟨hlo, hhi⟩)⟩

theorem exists_setBits (v x : Word32) : ∃ r, setBits v msp lsp x = .ok r :=
  ⟨_, setBitsWith_ok ((rangeOk_iff msp lsp).2 ⟨hlo, hhi⟩)⟩

/-- GET as R52 writes it over the natural numbers. -/
theorem getBits_eq_ofNat (v : Word32) :
    getBits v msp lsp = .ok (BitVec.ofNat 32 (v.toNat / 2 ^ lsp % 2 ^ (msp - lsp + 1))) := by
  have hval : ((v >>> lsp) &&& mask (msp - lsp + 1)).toNat = v.toNat / 2 ^ lsp % 2 ^ (msp - lsp + 1) := by
    rw [BitVec.toNat_and, BitVec.toNat_ushiftRight, mask_toNat (by omega), Nat.and_two_pow_sub_one_eq_mod,
      Nat.shiftRight_eq_div_pow]
  rw [getBits_ok ((rangeOk_iff msp lsp).2 ⟨hlo, hhi⟩), ← hval, BitVec.ofNat_toNat, BitVec.setWidth_eq]

end

/-! ### Consequences for SET and for GET after SET (R55, R56) -/

/-- An empty field: SET changes nothing. -/
theorem setBits_self_positions {p : Nat} (hp : p ≤ 31) (v x : Word32) : setBits v p p x = .ok v := by
  refine (setBits_eq_ok_iff le_rfl hp).2 fun i => ?_
  rw [if_neg (by omega)]

/-- The widest field: SET keeps bit 31 alone. -/
theorem setBits_full (v x : Word32) : setBits v 31 0 x = .ok ((v &&& ~~~ mask 31) ||| (x &&& mask 31)) := by
  refine (setBits_eq_ok_iff (by omega) le_rfl).2 fun i => ?_
  rw [BitVec.getLsbD_or, BitVec.getLsbD_and, BitVec.getLsbD_and, BitVec.getLsbD_not, mask_getLsbD]
  by_cases hin : i < 31
  · have hi : i < 32 := by omega
    simp [hin, hi]
  · by_cases hi : i < 32
    · simp [hin, hi]
    · simp [hin, BitVec.getLsbD_of_ge v i (by omega)]

section
variable {v x r : Word32} {msp lsp : Nat} (hlo : lsp ≤ msp) (hhi : msp ≤ 31)
include hlo hhi

/-- Only the new value's low `msp - lsp` bits count. -/
theorem setBits_mask_new (v x : Word32) : setBits v msp lsp x = setBits v msp lsp (x &&& mask (msp - lsp)) := by
  obtain ⟨r, hr⟩ := exists_setBits hlo hhi v x
  rw [hr, eq_comm, setBits_eq_ok_iff hlo hhi]
  intro i
  rw [(setBits_eq_ok_iff hlo hhi).1 hr i, BitVec.getLsbD_and, mask_getLsbD]
  split
  · have hi : i - lsp < 32 ∧ i - lsp < msp - lsp := by omega
    simp [hi]
  · rfl

variable (hr : setBits v msp lsp x = .ok r)
include hr

/-- SET leaves every bit outside its field as it was, bit `msp` among them (D5). -/
theorem setBits_getLsbD_outside {i : Nat} (hi : i < lsp ∨ msp ≤ i) : r.getLsbD i = v.getLsbD i := by
  rw [(setBits_eq_ok_iff hlo hhi).1 hr, if_neg (by omega)]

theorem setBits_idem : setBits r msp lsp x = .ok r := by
  refine (setBits_eq_ok_iff hlo hhi).2 fun i => ?_
  split
  · rw [(setBits_eq_ok_iff hlo hhi).1 hr, if_pos ‹_›]
  · rfl

/-- The two readings of bit `msp` (C2) differ exactly where the old value has it set. -/
theorem setBitsWith_clear_eq_iff : setBitsWith .clear v msp lsp x = .ok r ↔ v.getLsbD msp = false := by
  have hbit := (setBits_eq_ok_iff hlo hhi).1 hr
  rw [setBitsWith_eq_ok_iff hlo hhi]
  constructor
  · intro h
    simpa [hbit] using h msp
  · intro htop i
    rw [hbit]
    by_cases hi : i = msp
    · simp [hi, htop]
    · simp [hi]

/-- GET up to the bit below `msp` reads back what SET injected. -/
theorem getBits_below_msp_of_setBits (hlt : lsp < msp) : getBits r (msp - 1) lsp = .ok (x &&& mask (msp - lsp)) := by
  refine (getBits_eq_ok_iff (by omega) (by omega)).2 fun i => ?_
  have hwidth : lsp + i ≤ msp - 1 ↔ i < 32 ∧ i < msp - lsp := by omega
  rw [BitVec.getLsbD_and, mask_getLsbD, (setBits_eq_ok_iff hlo hhi).1 hr]
  by_cases h : i < 32 ∧ i < msp - lsp
  · have hin : lsp + i < msp := by omega
    simp [hwidth, h, hin]
  · simp [hwidth, h, ← Bool.decide_and]

/-- GET over SET's own positions reads back what SET injected, with the old bit `msp` on top. -/
theorem getBits_of_setBits : getBits r msp lsp
    = .ok ((x &&& mask (msp - lsp)) ||| ((if v.getLsbD msp then 1#32 else 0#32) <<< (msp - lsp))) := by
  refine (getBits_eq_ok_iff hlo hhi).2 fun i => ?_
  rw [BitVec.getLsbD_or, BitVec.getLsbD_and, mask_getLsbD, bit_shiftLeft_getLsbD, (setBits_eq_ok_iff hlo hhi).1 hr]
  rcases lt_trichotomy (lsp + i) msp with h | h | h
  · have hi : i < 32 ∧ i < msp - lsp ∧ i ≠ msp - lsp := by omega
    simp [h, h.le, hi]
  · have hi : msp - lsp = i ∧ i < 32 := by omega
    simp [h, hi]
  · have hi : ¬ i < msp - lsp ∧ i ≠ msp - lsp := by omega
    simp [h, hi]

/-- The document's round trip (C3) holds exactly where the old bit `msp` is 0. -/
theorem getBits_of_setBits_eq_iff : getBits r msp lsp = .ok (x &&& mask (msp - lsp)) ↔ v.getLsbD msp = false := by
  constructor
  · intro hback
    have htop := (getBits_eq_ok_iff hlo hhi).1 hback (msp - lsp)
    have hmsp : lsp + (msp - lsp) = msp := by omega
    simpa [mask_getLsbD, hmsp, setBits_getLsbD_outside hlo hhi hr] using htop
  · intro htop
    simp [getBits_of_setBits hlo hhi hr, htop]

end

/-! ### The position check (R51) and the meanings of GET and SET -/

theorem positions_of_getBits_ok {v g : Word32} {msp lsp : Nat} (h : getBits v msp lsp = .ok g) : lsp ≤ msp ∧ msp ≤ 31 := by
  rw [← rangeOk_iff]
  by_contra hbad
  simp [getBits_error (Bool.eq_false_iff.2 hbad)] at h

theorem getBits_rangeErr (v : Word32) (msp lsp : Nat) : (bfuOutOf (getBits v msp lsp)).rangeErr = !rangeOk msp lsp := by
  cases h : rangeOk msp lsp with
  | true => simp [getBits_ok h]
  | false => simp [getBits_error h]

theorem setBitsWith_rangeErr (top : SetTop) (v x : Word32) (msp lsp : Nat) :
    (bfuOutOf (setBitsWith top v msp lsp x)).rangeErr = !rangeOk msp lsp := by
  cases h : rangeOk msp lsp with
  | true => simp [setBitsWith_ok h]
  | false => simp [setBitsWith_error h]

/-- For either operation `bf_range_err` is the position check and nothing else. -/
theorem bfu_rangeErr (i : BfuIn) : (bfu i).rangeErr = !rangeOk i.msp.toNat i.lsp.toNat := by
  rw [bfu, bfuWith]
  split
  · exact getBits_rangeErr ..
  · exact setBitsWith_rangeErr ..

theorem not_rangeOk_eq_decide (msp lsp : Nat) : (!rangeOk msp lsp) = decide (msp < lsp ∨ 32 ≤ msp) := by
  rw [Bool.eq_iff_iff, Bool.not_eq_true', Bool.eq_false_iff, ne_eq, rangeOk_iff, decide_eq_true_iff]
  omega

theorem exec_bfGet (s : State) :
    exec .bfGet s = .next (s.driveBfu (getBits s.bfuIn.value s.bfuIn.msp.toNat s.bfuIn.lsp.toNat)) := by
  rfl

theorem exec_bfSet (s : State) :
    exec .bfSet s
      = .next (s.driveBfu (setBits s.bfuIn.value s.bfuIn.msp.toNat s.bfuIn.lsp.toNat s.bfuIn.newValue)) := by
  rfl

theorem driveBfu_ok (s : State) (w : Word32) : s.driveBfu (.ok w) = { s with bfuOut := ⟨w, false⟩ } := rfl

/-- Where the error flag of a result is up, the unit's outputs are some value with the flag up. -/
theorem driveBfu_of_rangeErr {r : Except RangeError Word32} (s : State) (h : (bfuOutOf r).rangeErr = true) :
    ∃ w, s.driveBfu r = { s with bfuOut := ⟨w, true⟩ } :=
  ⟨(bfuOutOf r).result, by rw [← h]; rfl⟩

theorem not_rangeOk_of_not_legal {i : BfuIn} (h : ¬ i.Legal) : (!rangeOk i.msp.toNat i.lsp.toNat) = true := by
  rwa [Bool.not_eq_true', Bool.eq_false_iff, ne_eq, rangeOk_iff]

/-- A word that lies in an instruction's row of the opcode map and carries its operands decodes to it. -/
theorem decodeWord_of_fields {i : Instr} {w : Word16} (hrow : i.RowHas w) (hfields : i.withFieldsOf w = i) :
    decodeWord w = i :=
  (decodeWord_of_row hrow).trans hfields

/-! ### The statements -/

/-- Settles O34. -/
theorem getReadsBackWhatSetWrote : Obligations.GetReadsBackWhatSetWrote := by
  intro v x msp lsp hlo hhi
  obtain ⟨r, hr⟩ := exists_setBits hlo hhi v x
  exact ⟨r, hr, getBits_below_msp_of_setBits hlo hhi hr, getBits_of_setBits hlo hhi hr,
    getBits_of_setBits_eq_iff hlo hhi hr, fun _ => setBits_getLsbD_outside hlo hhi hr⟩

/-- Settles O29. -/
theorem getExtractsTheNamedBits : Obligations.GetExtractsTheNamedBits := by
  refine ⟨fun s ⟨hlo, hhi⟩ => ?_, fun s hbad => ?_, rfl⟩
  · rw [exec_bfGet, getBits_eq_ofNat hlo hhi, driveBfu_ok]
  · obtain ⟨w, hw⟩ := driveBfu_of_rangeErr s ((getBits_rangeErr ..).trans (not_rangeOk_of_not_legal hbad))
    exact ⟨w, by rw [exec_bfGet, hw]⟩

/-- Settles O30. The full-width case is a field whose bits are all the bits from `lsp` up. -/
theorem getMasksFirstOrShiftsFirst : Obligations.GetMasksFirstOrShiftsFirst := by
  have hfull (v : Word32) (lsp : Nat) (hlsp : lsp ≤ 31) : getBits v 31 lsp = .ok (v >>> lsp) := by
    refine (getBits_eq_ok_iff hlsp le_rfl).2 fun i => ?_
    rw [BitVec.getLsbD_ushiftRight]
    by_cases h : lsp + i ≤ 31
    · simp [h]
    · simp [h, BitVec.getLsbD_of_ge v (lsp + i) (by omega)]
  refine ⟨fun v msp lsp hlo hhi => (getBits_eq_ok_iff hlo hhi).2 fun i => ?_, rfl, hfull, fun v => ?_⟩
  · have hwidth : (lsp + i < 32 ∧ lsp + i < msp + 1) ↔ lsp + i ≤ msp := by omega
    rw [BitVec.getLsbD_ushiftRight, BitVec.getLsbD_and, mask_getLsbD, ← Bool.decide_and, Bool.and_comm]
    simp only [hwidth]
  · simpa using hfull v 0 (by omega)

/-- Settles O31. -/
theorem setReplacesTheBitsBelowMsp : Obligations.SetReplacesTheBitsBelowMsp := by
  refine ⟨fun s ⟨hlo, hhi⟩ => ?_, fun s hbad => ?_, rfl⟩
  · obtain ⟨r, hr⟩ := exists_setBits hlo hhi s.bfuIn.value s.bfuIn.newValue
    exact ⟨r, by rw [exec_bfSet, hr, driveBfu_ok], fun i _ => (setBits_eq_ok_iff hlo hhi).1 hr i⟩
  · obtain ⟨w, hw⟩ := driveBfu_of_rangeErr s ((setBitsWith_rangeErr ..).trans (not_rangeOk_of_not_legal hbad))
    exact ⟨w, by rw [exec_bfSet, setBits, hw]⟩

/-- Settles O32. -/
theorem rangeErrorDependsOnPositionsOnly : Obligations.RangeErrorDependsOnPositionsOnly := by
  intro s hs
  refine ⟨(bfu s.bfuIn).result, ?_⟩
  rw [step_bfu hs, ← not_rangeOk_eq_decide, ← bfu_rangeErr]

/-- Settles O33. At (31, 0) the two masks are bit 31 and the bits below it. -/
theorem setCornerCases : Obligations.SetCornerCases := by
  refine ⟨fun v x p hp => setBits_self_positions hp v x, setBits_full,
    fun v x msp lsp hlo hhi => setBits_mask_new hlo hhi v x, rfl, fun v x msp lsp hlo hhi => ?_⟩
  obtain ⟨r, hr⟩ := exists_setBits hlo hhi v x
  exact ⟨r, hr, setBits_getLsbD_outside hlo hhi hr (.inr le_rfl), setBits_idem hlo hhi hr,
    setBitsWith_clear_eq_iff hlo hhi hr⟩

/-- Settles O35. The bound is the remainder's; the split compares the bits above `k` and those up to it. -/
theorem getIsBoundedAndSplits : Obligations.GetIsBoundedAndSplits := by
  refine ⟨fun v g msp lsp hg => ?_, fun v msp k lsp hlk hkm hhi => ?_⟩
  · obtain ⟨hlo, hhi⟩ := positions_of_getBits_ok hg
    obtain rfl := Except.ok.inj ((getBits_eq_ofNat hlo hhi v).symm.trans hg)
    have hmod := Nat.mod_lt (v.toNat / 2 ^ lsp) (Nat.two_pow_pos (msp - lsp + 1))
    rw [BitVec.toNat_ofNat]
    exact Nat.le_sub_one_of_lt ((Nat.mod_le ..).trans_lt hmod)
  · obtain ⟨g, hg⟩ := exists_getBits (lsp := lsp) (by omega) hhi v
    obtain ⟨h, hh⟩ := exists_getBits (lsp := k + 1) (by omega) hhi v
    obtain ⟨l, hl⟩ := exists_getBits (lsp := lsp) (msp := k) (by omega) (by omega) v
    refine ⟨g, h, l, hg, hh, hl, BitVec.eq_of_getLsbD_eq fun i hi => ?_⟩
    rw [BitVec.getLsbD_or, BitVec.getLsbD_shiftLeft, (getBits_eq_ok_iff (by omega) hhi).1 hg,
      (getBits_eq_ok_iff (by omega) hhi).1 hh, (getBits_eq_ok_iff (by omega) (by omega)).1 hl]
    by_cases hik : lsp + i ≤ k
    · have h1 : i < k + 1 - lsp ∧ lsp + i ≤ msp := by omega
      simp [hik, h1]
    · have h1 : ¬ i < k + 1 - lsp := by omega
      have h2 : k + 1 + (i - (k + 1 - lsp)) = lsp + i := by omega
      simp [hik, h1, h2, hi]

/-- Settles O5. Each word lies in its instruction's row of the opcode map, and its fields are the operands. -/
theorem specWordsDecodeAsWritten : Obligations.SpecWordsDecodeAsWritten := by
  exact ⟨decodeWord_of_fields ⟨_, rfl, rfl⟩ rfl, decodeWord_of_fields ⟨_, rfl, rfl⟩ rfl,
    decodeWord_of_fields ⟨_, rfl, rfl⟩ rfl, decodeWord_of_fields ⟨_, rfl, rfl⟩ rfl,
    decodeWord_of_fields ⟨_, rfl, rfl⟩ rfl, decodeWord_of_fields ⟨_, rfl, rfl⟩ rfl,
    decodeWord_of_fields ⟨_, rfl, rfl⟩ rfl, decodeWord_of_fields ⟨_, rfl, rfl⟩ rfl,
    decodeWord_of_fields ⟨_, rfl, rfl⟩ rfl, decodeWord_of_fields ⟨_, rfl, rfl⟩ rfl,
    decodeWord_of_fields ⟨_, rfl, rfl⟩ rfl, decodeWord_of_fields ⟨_, rfl, rfl⟩ rfl,
    mux2_zero _ _, mux2_one _ _⟩

/-- Settles O58. The meanings apply one function to the operand ports, which the two states share. -/
theorem getAndSetReadOperandsAndWriteResultOnly : Obligations.GetAndSetReadOperandsAndWriteResultOnly := by
  refine ⟨fun s s' hv hm hl => ⟨_, exec_bfGet s, ?_⟩, fun s s' hv hm hl hn => ⟨_, exec_bfSet s, ?_⟩⟩
  · rw [exec_bfGet, hv, hm, hl]; rfl
  · rw [exec_bfSet, hv, hm, hl, hn]; rfl

end Sys2Proof.Machine
end

section
/-! PROOFS. The dispatch engine (41_dispatch.md): its one function class by class, what the OPEN tables and `next_pc` can change of
its outputs, what a step runs, and the tables of the port codes. -/

namespace Sys2Proof.Machine

/-! ### The engine's function, class by class (R69), for any value of the OPEN parameters -/

section
variable (P : Params) {w : Word16} (pc : Word16)

theorem odeWith_load (hc : fieldCls w = 0#3) : odeWith P w pc = loadStoreWith P .ldr w := by
  simp [odeWith, hc]

theorem odeWith_store (hc : fieldCls w = 1#3) : odeWith P w pc = loadStoreWith P .str w := by
  simp [odeWith, hc]

theorem odeWith_branch (hc : fieldCls w = 2#3) :
    odeWith P w pc = emit (fieldCls w) (branchMnemonic (fieldSub3 w)) .br
      (branchTargetWith P.branchMask pc (fieldOff10 w)) 0#16 0#16 := by
  simp [odeWith, hc]

theorem odeWith_moveImmediate (hc : fieldCls w = 3#3) :
    odeWith P w pc = emit (fieldCls w) (if fieldSub1 w = 0#1 then .mov else .movt) .movi (fieldVal (fieldRd w))
      (fieldVal (fieldImm8 w)) 0#16 := by
  simp [odeWith, hc]

theorem odeWith_arithRegister (hc : fieldCls w = 4#3) :
    odeWith P w pc = emit (fieldCls w) (mux4 (fieldSub2 w) .add .sub .adc .sbc) .r3 (fieldVal (fieldRd w))
      (fieldVal (fieldRn w)) (fieldVal (fieldRm w)) := by
  simp [odeWith, hc]

theorem odeWith_addImm (hc : fieldCls w = 5#3) (h : fieldSub2 w = 0#2) :
    odeWith P w pc = emit (fieldCls w) .add .ri4 (fieldVal (fieldRd w)) (fieldVal (fieldRn w))
      (fieldVal (fieldImm4 w)) := by
  simp [odeWith, hc, h]

theorem odeWith_subImm (hc : fieldCls w = 5#3) (h : fieldSub2 w = 1#2) :
    odeWith P w pc = emit (fieldCls w) .sub .ri4 (fieldVal (fieldRd w)) (fieldVal (fieldRn w))
      (fieldVal (fieldImm4 w)) := by
  simp [odeWith, hc, h]

theorem odeWith_hi (hc : fieldCls w = 5#3) (h : fieldSub2 w = 2#2) : odeWith P w pc = hiWith P w := by
  simp [odeWith, hc, h]

theorem odeWith_cmp (hc : fieldCls w = 5#3) (h : fieldSub2 w = 3#2) :
    odeWith P w pc = emit (fieldCls w) .cmp .cmp (fieldVal (fieldRn w)) (fieldVal (fieldRm w)) 0#16 := by
  simp [odeWith, hc, h]

theorem odeWith_logical (hc : fieldCls w = 6#3) :
    odeWith P w pc = emitCase (fieldCls w) (P.logicalTable (fieldSub2 w).toFin) .r3 (fieldVal (fieldRd w))
      (fieldVal (fieldRn w)) (fieldVal (fieldRm w)) := by
  simp [odeWith, hc]

theorem odeWith_shift (hc : fieldCls w = 7#3) : odeWith P w pc = shiftWith P w := by
  simp [odeWith, hc]

/-- The function looks at `next_pc` in class 2 only (R66, D37). -/
theorem odeWith_nextPc_irrelevant (pc' : Word16) (hc : fieldCls w ≠ 2#3) : odeWith P w pc = odeWith P w pc' := by
  simp [odeWith, hc]

end

/-! ### Operand values within their kinds' bounds (R68)

`kindBound` gives ADDR the default 10-bit window; under an OPEN branch mask the window is the mask itself. -/

/-- The largest value of a kind under a branch mask. -/
def kindBoundUnder (mask : Word16) : Kind → Nat
  | .addr => mask.toNat
  | k => kindBound k

/-- An operand's value is within its kind's bound under a branch mask. -/
def Operand.Fits (mask : Word16) (o : Operand) : Prop := o.val.toNat ≤ kindBoundUnder mask o.kind

theorem kindBoundUnder_le {mask : Word16} (h : mask.toNat ≤ 0x3FF) (k : Kind) : kindBoundUnder mask k ≤ kindBound k := by
  cases k with
  | addr => exact h
  | _ => exact le_rfl

theorem Operand.Fits.le_kindBound {mask : Word16} {o : Operand} (h : o.Fits mask) (hm : mask.toNat ≤ 0x3FF) :
    o.val.toNat ≤ kindBound o.kind :=
  h.trans (kindBoundUnder_le hm o.kind)

/-- An operand of kind NONE that fits has the value 0. -/
theorem Operand.Fits.val_eq_zero {mask : Word16} {o : Operand} (h : o.Fits mask) (hk : o.kind = .none) :
    o.val = 0#16 := by
  have hle : o.val.toNat ≤ 0 := by simpa [Operand.Fits, hk, kindBoundUnder, kindBound] using h
  exact BitVec.eq_of_toNat_eq (Nat.le_zero.1 hle)

theorem fieldVal_toNat_lt {n : Nat} (x : BitVec n) : (fieldVal x).toNat < 2 ^ n := by
  rw [fieldVal, BitVec.toNat_setWidth]
  exact (Nat.mod_le _ _).trans_lt x.isLt

section
variable (mask : Word16)

theorem zero_fits (k : Kind) : (⟨k, 0#16⟩ : Operand).Fits mask := Nat.zero_le _

theorem reg_fits (r : RegIdx) : (⟨.reg, fieldVal r⟩ : Operand).Fits mask := Nat.le_of_lt_succ (fieldVal_toNat_lt r)

theorem rega_fits (r : RegIdx) : (⟨.rega, fieldVal r⟩ : Operand).Fits mask := Nat.le_of_lt_succ (fieldVal_toNat_lt r)

theorem imm_fits {n : Nat} (x : BitVec n) (hn : n ≤ 8) : (⟨.imm, fieldVal x⟩ : Operand).Fits mask :=
  Nat.le_of_lt_succ ((fieldVal_toNat_lt x).trans_le (Nat.pow_le_pow_right (by decide) hn))

theorem psr_fits (p : Psr) : (⟨.psr, p.val⟩ : Operand).Fits mask := by
  cases p with
  | cspr => exact Nat.zero_le _
  | spsr => exact le_rfl

theorem branchTargetWith_fits (pc : Word16) (off : BitVec 10) :
    (⟨.addr, branchTargetWith mask pc off⟩ : Operand).Fits mask := by
  rw [Operand.Fits, branchTargetWith, BitVec.toNat_and]
  exact Nat.and_le_right

end

/-! ### Every output is driven consistently (R62, R65, R68) -/

/-- The outputs carry the class, have the shape of their form, and every value fits its kind. -/
structure OdeOut.WellDriven (mask : Word16) (cls : BitVec 3) (o : OdeOut) : Prop where
  cls_eq : o.cls = cls
  shaped : o.Shaped
  fits0 : o.op0.Fits mask
  fits1 : o.op1.Fits mask
  fits2 : o.op2.Fits mask

theorem OdeOut.WellDriven.bounded {mask : Word16} {cls : BitVec 3} {o : OdeOut} (h : o.WellDriven mask cls)
    (hm : mask.toNat ≤ 0x3FF) : o.Bounded :=
  ⟨h.fits0.le_kindBound hm, h.fits1.le_kindBound hm, h.fits2.le_kindBound hm⟩

theorem unknownOutcome_wellDriven (mask : Word16) (cls : BitVec 3) : (unknownOutcome cls).WellDriven mask cls where
  cls_eq := rfl
  shaped := ⟨rfl, rfl, rfl, rfl, fun _ => rfl, fun _ => rfl, fun _ => rfl, by simp, by simp⟩
  fits0 := zero_fits mask _
  fits1 := zero_fits mask _
  fits2 := zero_fits mask _

section
variable {mask : Word16} {cls : BitVec 3} {m : Mnemonic} {f : Form} {a b c : Word16}

theorem emit_wellDriven (hm : m ≠ .unknown) (hf : f ≠ .none) (ha : (⟨f.kind0, a⟩ : Operand).Fits mask)
    (hb : (⟨f.kind1, b⟩ : Operand).Fits mask) (hc : (⟨f.kind2, c⟩ : Operand).Fits mask) :
    (emit cls m f a b c).WellDriven mask cls where
  cls_eq := rfl
  shaped := ⟨rfl, rfl, rfl, rfl, ha.val_eq_zero, hb.val_eq_zero, hc.val_eq_zero, by simp, by simp [hm, hf]⟩
  fits0 := ha
  fits1 := hb
  fits2 := hc

theorem emitCase_wellDriven (hf : f ≠ .none) (ha : (⟨f.kind0, a⟩ : Operand).Fits mask)
    (hb : (⟨f.kind1, b⟩ : Operand).Fits mask) (hc : (⟨f.kind2, c⟩ : Operand).Fits mask) :
    (emitCase cls m f a b c).WellDriven mask cls := by
  rw [emitCase]
  split
  next => exact unknownOutcome_wellDriven mask cls
  next hm => exact emit_wellDriven hm hf ha hb hc

end

theorem branchMnemonic_ne_unknown (x : BitVec 3) : branchMnemonic x ≠ .unknown := by
  revert x; decide

theorem arithMnemonic_ne_unknown (x : BitVec 2) : mux4 x .add .sub .adc .sbc ≠ Mnemonic.unknown := by
  revert x; decide

section
variable (P : Params) (w : Word16)

theorem loadStoreWith_wellDriven {m : Mnemonic} (hm : m ≠ .unknown) :
    (loadStoreWith P m w).WellDriven P.branchMask (fieldCls w) := by
  rw [loadStoreWith]
  cases P.lsTable (fieldSub3 w).toFin with
  | imm => exact emit_wellDriven hm nofun (reg_fits _ _) (reg_fits _ _) (imm_fits _ _ (by decide))
  | reg => exact emit_wellDriven hm nofun (reg_fits _ _) (reg_fits _ _) (reg_fits _ _)
  | unknown => exact unknownOutcome_wellDriven _ _

theorem hiWith_wellDriven : (hiWith P w).WellDriven P.branchMask (fieldCls w) := by
  rw [hiWith]
  cases P.hiTable (fieldFn3 w).toFin with
  | move m => exact emitCase_wellDriven nofun (rega_fits _ _) (rega_fits _ _) (zero_fits _ _)
  | msr p => exact emit_wellDriven nofun nofun (psr_fits _ _) (reg_fits _ _) (zero_fits _ _)
  | mrs p => exact emit_wellDriven nofun nofun (reg_fits _ _) (psr_fits _ _) (zero_fits _ _)
  | unknown => exact unknownOutcome_wellDriven _ _

theorem shiftWith_wellDriven : (shiftWith P w).WellDriven P.branchMask (fieldCls w) := by
  rw [shiftWith]
  cases P.shiftTable with
  | five t => exact emitCase_wellDriven nofun (reg_fits _ _) (reg_fits _ _) (imm_fits _ _ (by decide))
  | four t => exact emitCase_wellDriven nofun (reg_fits _ _) (reg_fits _ _) (imm_fits _ _ (by decide))

/-- Whatever the OPEN tables say, the outputs of every word are driven consistently: by each class's leaf, or by the unknown
outcome. -/
theorem odeWith_wellDriven (pc : Word16) : (odeWith P w pc).WellDriven P.branchMask (fieldCls w) := by
  rcases bitVec3_cases (fieldCls w) with hc | hc | hc | hc | hc | hc | hc | hc
  · rw [odeWith_load P pc hc]
    exact loadStoreWith_wellDriven P w nofun
  · rw [odeWith_store P pc hc]
    exact loadStoreWith_wellDriven P w nofun
  · rw [odeWith_branch P pc hc]
    exact emit_wellDriven (branchMnemonic_ne_unknown _) nofun (branchTargetWith_fits _ _ _) (zero_fits _ _) (zero_fits _ _)
  · rw [odeWith_moveImmediate P pc hc]
    have hm : (if fieldSub1 w = 0#1 then Mnemonic.mov else .movt) ≠ .unknown := by split <;> nofun
    exact emit_wellDriven hm nofun (reg_fits _ _) (imm_fits _ _ le_rfl) (zero_fits _ _)
  · rw [odeWith_arithRegister P pc hc]
    exact emit_wellDriven (arithMnemonic_ne_unknown _) nofun (reg_fits _ _) (reg_fits _ _) (reg_fits _ _)
  · rcases bitVec2_cases (fieldSub2 w) with h | h | h | h
    · rw [odeWith_addImm P pc hc h]
      exact emit_wellDriven nofun nofun (reg_fits _ _) (reg_fits _ _) (imm_fits _ _ (by decide))
    · rw [odeWith_subImm P pc hc h]
      exact emit_wellDriven nofun nofun (reg_fits _ _) (reg_fits _ _) (imm_fits _ _ (by decide))
    · rw [odeWith_hi P pc hc h]
      exact hiWith_wellDriven P w
    · rw [odeWith_cmp P pc hc h]
      exact emit_wellDriven nofun nofun (reg_fits _ _) (reg_fits _ _) (zero_fits _ _)
  · rw [odeWith_logical P pc hc]
    exact emitCase_wellDriven nofun (reg_fits _ _) (reg_fits _ _) (reg_fits _ _)
  · rw [odeWith_shift P pc hc]
    exact shiftWith_wellDriven P w

end

/-! ### What `next_pc` changes (R66) -/

/-- The branch target depends on bits 9 to 0 of `next_pc` only (R82). -/
theorem branchTarget_congr_low_bits {pc pc' : Word16} (h : pc.extractLsb' 0 10 = pc'.extractLsb' 0 10)
    (off : BitVec 10) : branchTarget pc off = branchTarget pc' off := by
  have hmod : pc.toNat % 1024 = pc'.toNat % 1024 := by
    simpa [BitVec.extractLsb'_toNat] using congrArg BitVec.toNat h
  apply BitVec.eq_of_toNat_eq
  rw [branchTarget_toNat, branchTarget_toNat]
  omega

section
variable {w : Word16}

theorem ode_branch (pc : Word16) (hc : fieldCls w = 2#3) :
    ode w pc = emit (fieldCls w) (branchMnemonic (fieldSub3 w)) .br (branchTarget pc (fieldOff10 w)) 0#16 0#16 :=
  odeWith_branch Params.spec pc hc

theorem ode_nextPc_irrelevant (pc pc' : Word16) (hc : fieldCls w ≠ 2#3) : ode w pc = ode w pc' :=
  odeWith_nextPc_irrelevant Params.spec pc pc' hc

theorem ode_congr_low_bits {pc pc' : Word16} (h : pc.extractLsb' 0 10 = pc'.extractLsb' 0 10) :
    ode w pc = ode w pc' := by
  by_cases hc : fieldCls w = 2#3
  · rw [ode_branch pc hc, ode_branch pc' hc, branchTarget_congr_low_bits h]
  · exact ode_nextPc_irrelevant pc pc' hc

/-- Apart from the value of operand 0 the outputs do not depend on `next_pc`. -/
theorem ode_nextPc_op0_val_only (w pc pc' : Word16) :
    { ode w pc with op0 := ⟨(ode w pc).op0.kind, 0#16⟩ } = { ode w pc' with op0 := ⟨(ode w pc').op0.kind, 0#16⟩ } := by
  by_cases hc : fieldCls w = 2#3
  · rw [ode_branch pc hc, ode_branch pc' hc]
    rfl
  · rw [ode_nextPc_irrelevant pc pc' hc]

end

/-! ### The step as the meaning of what its inputs decode to (R60, R50) -/

section
variable {s : State}

theorem step_eq_exec_word (h : s.select = .ode) : step s = exec (decodeWord s.odeIn.word) s := by
  simp only [step, h, decode]

theorem step_eq_exec_bfOp (h : s.select = .bfu) : step s = exec (decodeBfOp s.bfuIn.op) s := by
  simp only [step, h, decode]

theorem step_eq_afterWord {a : Word16} {lo hi : Byte} (h : s.select = .record)
    (hp : s.presentation = .word a lo hi) :
    step s = afterWord a lo hi (exec (decodeWord (assembleWord lo hi)) (s.presentWord a lo hi)) := by
  simp only [step, h, hp, decode]

end

/-- The two bytes of a number, low byte first, are its word (R22). -/
theorem assembleWord_ofNat (w : Nat) : assembleWord (BitVec.ofNat 8 w) (BitVec.ofNat 8 (w / 256)) = BitVec.ofNat 16 w := by
  apply BitVec.eq_of_toNat_eq
  rw [assembleWord_toNat]
  simp only [BitVec.toNat_ofNat]
  omega

theorem decodeTableWord_word (w : Nat) : decodeTableWord 16 w = some (decodeWord (BitVec.ofNat 16 w)) := by
  rw [← assembleWord_ofNat]
  rfl

theorem decodeTableWord_bfOp (w : Nat) : decodeTableWord 8 w = some (decodeBfOp (BitVec.ofNat 1 w)) := rfl

/-! ### The tables of the port codes (R67, R68) -/

/-- A numbering read off a table is injective when every name has a row with its number and the column of numbers repeats
none. -/
theorem injective_of_table {α ρ : Type} {n : Nat} {code : α → BitVec n} {table : List ρ} {name : ρ → α}
    {number : ρ → Nat} (hdistinct : (table.map number).Nodup)
    (hrow : ∀ a, ∃ p ∈ table, name p = a ∧ number p = (code a).toNat) : Function.Injective code := by
  intro a b hab
  obtain ⟨p, hp, rfl, hpn⟩ := hrow a
  obtain ⟨q, hq, rfl, hqn⟩ := hrow b
  have hpq : p = q := List.inj_on_of_nodup_map hdistinct hp hq (by rw [hpn, hqn, hab])
  rw [hpq]

theorem mnemonicTable_row (m : Mnemonic) :
    ∃ t, mnemonicTable.filter (fun p => p.1 = m) = [(m, m.code.toNat, t)] ∧ mtext m = t.toList := by
  cases m <;> exact ⟨_, rfl, rfl⟩

theorem kindTable_row (k : Kind) : kindTable.filter (fun p => p.1 = k) = [(k, k.code.toNat)] := by
  cases k <;> rfl

theorem formTable_row (f : Form) :
    formTable.filter (fun p => p.1 = f) = [(f, f.code.toNat, f.nops.toNat, f.kind0, f.kind1, f.kind2)] := by
  cases f <;> rfl

/-- The one row a filter leaves is a row of the table. -/
theorem mem_of_filter_eq_singleton {ρ : Type} {table : List ρ} {keep : ρ → Bool} {p : ρ}
    (h : table.filter keep = [p]) : p ∈ table :=
  List.mem_of_mem_filter (h ▸ List.mem_singleton_self p)

theorem mnemonic_code_injective : Function.Injective Mnemonic.code := by
  have hdistinct : (mnemonicTable.map fun p => p.2.1).Nodup := by decide
  refine injective_of_table (name := fun p => p.1) hdistinct fun m => ?_
  obtain ⟨t, hrow, -⟩ := mnemonicTable_row m
  exact ⟨_, mem_of_filter_eq_singleton hrow, rfl, rfl⟩

theorem kind_code_injective : Function.Injective Kind.code := by
  have hdistinct : (kindTable.map fun p => p.2).Nodup := by decide
  exact injective_of_table (name := fun p => p.1) hdistinct fun k =>
    ⟨_, mem_of_filter_eq_singleton (kindTable_row k), rfl, rfl⟩

theorem form_code_injective : Function.Injective Form.code := by
  have hdistinct : (formTable.map fun p => p.2.1).Nodup := by decide
  exact injective_of_table (name := fun p => p.1) hdistinct fun f =>
    ⟨_, mem_of_filter_eq_singleton (formTable_row f), rfl, rfl⟩

/-! ### The statements -/

/-- Settles O7. The step runs the meaning of the decoded word, which `exec_decodeWord` shows, class by class, to drive the outputs to
the whole function. -/
theorem everyWordAndNextPcHasTheOutputsOfTheWholeFunction :
    Obligations.EveryWordAndNextPcHasTheOutputsOfTheWholeFunction :=
  fun s w pc => step_ode (s := { s with select := .ode, odeIn := ⟨w, pc⟩ }) rfl

/-- Settles O37. Each leaf of each class emits values that fit the kinds of its form, or gives the unknown outcome. -/
theorem outputsAreShapedWhateverTheOpenTables : Obligations.OutputsAreShapedWhateverTheOpenTables := by
  intro P w pc
  have h := odeWith_wellDriven P w pc
  exact ⟨h.cls_eq.trans (fieldCls_eq w), h.shaped, h.bounded⟩

/-- Settles O38. Only the branch leaf reads `next_pc`, and it reads it in the target, which is a sum modulo 1024. -/
theorem nextPcMattersForTheBranchOperandOnly : Obligations.NextPcMattersForTheBranchOperandOnly := by
  intro s w pc pc'
  refine ⟨_, _, everyWordAndNextPcHasTheOutputsOfTheWholeFunction s w pc,
    everyWordAndNextPcHasTheOutputsOfTheWholeFunction s w pc', ?_, ode_congr_low_bits, ode_nextPc_op0_val_only w pc pc'⟩
  intro hc
  exact ode_nextPc_irrelevant pc pc' (by rwa [fieldCls_eq])

/-- Settles O6. The step by what it selects; a placed table row is the word, or the `bf_op`, that the next step decodes. -/
theorem stepRunsTheDecodedInstruction : Obligations.StepRunsTheDecodedInstruction := by
  refine ⟨fun _ => step_eq_exec_word, fun _ => step_eq_exec_bfOp, fun _ _ _ _ => step_eq_afterWord, ?_, ?_⟩
  · intro s w i hi
    obtain rfl : decodeWord (BitVec.ofNat 16 w) = i := Option.some.inj ((decodeTableWord_word w).symm.trans hi)
    exact step_eq_exec_word rfl
  · intro s w i hi
    obtain rfl : decodeBfOp (BitVec.ofNat 1 w) = i := Option.some.inj ((decodeTableWord_bfOp w).symm.trans hi)
    exact step_eq_exec_bfOp rfl

/-- Settles O57. Each name is looked up in its table; the codes are distinct because the tables' columns of numbers are. -/
theorem portCodesAndTextsAreTheTables : Obligations.PortCodesAndTextsAreTheTables :=
  ⟨mnemonicTable_row, kindTable_row, formTable_row, mnemonic_code_injective, kind_code_injective, form_code_injective⟩

end Sys2Proof.Machine
end

section
/-! PROOFS. Loads and stores (42_load_store.md): what their meanings drive, what a step on a word of a row runs, and from these the
statements about the words of classes 0 and 1 and about the unmapped words. -/

namespace Sys2Proof.Machine

/-! ### What each meaning drives (R71 to R74) -/

section
variable (s : State) (rd rn rm : RegIdx) (imm3 : BitVec 3)

theorem exec_ldrImm : exec (.ldrImm rd rn imm3) s = .next { s with odeOut :=
    ⟨0#3, .ldr, .memi, 3#2, ⟨.reg, fieldVal rd⟩, ⟨.reg, fieldVal rn⟩, ⟨.imm, fieldVal imm3⟩, false⟩ } := by
  rfl

theorem exec_ldrReg : exec (.ldrReg rd rn rm) s = .next { s with odeOut :=
    ⟨0#3, .ldr, .memr, 3#2, ⟨.reg, fieldVal rd⟩, ⟨.reg, fieldVal rn⟩, ⟨.reg, fieldVal rm⟩, false⟩ } := by
  rfl

theorem exec_strImm : exec (.strImm rd rn imm3) s = .next { s with odeOut :=
    ⟨1#3, .str, .memi, 3#2, ⟨.reg, fieldVal rd⟩, ⟨.reg, fieldVal rn⟩, ⟨.imm, fieldVal imm3⟩, false⟩ } := by
  rfl

theorem exec_strReg : exec (.strReg rd rn rm) s = .next { s with odeOut :=
    ⟨1#3, .str, .memr, 3#2, ⟨.reg, fieldVal rd⟩, ⟨.reg, fieldVal rn⟩, ⟨.reg, fieldVal rm⟩, false⟩ } := by
  rfl

end

/-- On a word of an instruction's row, the step runs that instruction with its operands read from the word (R32, R60). -/
theorem step_of_row {i : Instr} {s : State} (hs : s.EvaluatesOde) (hrow : i.RowHas s.odeIn.word) :
    step s = exec (i.withFieldsOf s.odeIn.word) s := by
  rw [step_eq_exec_word hs, decodeWord_of_row hrow]

/-- An evaluation on a word of an unknown pattern drives the unknown outcome, with the word's own class (R64). -/
theorem outputs_of_unknownPattern {s : State} {p : Pattern} (hs : s.EvaluatesOde) (hp : p ∈ unknownPatterns)
    (hw : inRow s.odeIn.word p.bits p.mask) : s.Outputs (unknownOutcome (s.odeIn.word.extractLsb' 13 3)) := by
  obtain ⟨out, hout, hflag, hunknown⟩ := unknownExactlyOnTheEightPatterns s hs
  rwa [hunknown (hflag.2 ⟨p, hp, Pattern.covers_iff.2 hw⟩)] at hout

/-! ### The words of the four rows of classes 0 and 1 -/

section
variable {s : State} (hs : s.EvaluatesOde)
include hs

theorem outputs_of_ldrImm_row (hw : inRow s.odeIn.word 0x0000#16 0xFC00#16) :
    s.Outputs ⟨0#3, .ldr, .memi, 3#2, ⟨.reg, slice s.odeIn.word 3 0⟩, ⟨.reg, slice s.odeIn.word 6 4⟩,
      ⟨.imm, slice s.odeIn.word 9 7⟩, false⟩ := by
  have hrow : (Instr.ldrImm 0#4 0#4 0#3).RowHas s.odeIn.word := ⟨_, rfl, hw⟩
  rw [State.Outputs, step_of_row hs hrow, Instr.withFieldsOf, exec_ldrImm, fieldVal_rd, fieldVal_rn, fieldVal_imm3]

theorem outputs_of_ldrReg_row (hw : inRow s.odeIn.word 0x1000#16 0xF800#16) :
    s.Outputs ⟨0#3, .ldr, .memr, 3#2, ⟨.reg, slice s.odeIn.word 3 0⟩, ⟨.reg, slice s.odeIn.word 6 4⟩,
      ⟨.reg, slice s.odeIn.word 10 7⟩, false⟩ := by
  have hrow : (Instr.ldrReg 0#4 0#4 0#4).RowHas s.odeIn.word := ⟨_, rfl, hw⟩
  rw [State.Outputs, step_of_row hs hrow, Instr.withFieldsOf, exec_ldrReg, fieldVal_rd, fieldVal_rn, fieldVal_rm]

theorem outputs_of_strImm_row (hw : inRow s.odeIn.word 0x2000#16 0xFC00#16) :
    s.Outputs ⟨1#3, .str, .memi, 3#2, ⟨.reg, slice s.odeIn.word 3 0⟩, ⟨.reg, slice s.odeIn.word 6 4⟩,
      ⟨.imm, slice s.odeIn.word 9 7⟩, false⟩ := by
  have hrow : (Instr.strImm 0#4 0#4 0#3).RowHas s.odeIn.word := ⟨_, rfl, hw⟩
  rw [State.Outputs, step_of_row hs hrow, Instr.withFieldsOf, exec_strImm, fieldVal_rd, fieldVal_rn, fieldVal_imm3]

theorem outputs_of_strReg_row (hw : inRow s.odeIn.word 0x3000#16 0xF800#16) :
    s.Outputs ⟨1#3, .str, .memr, 3#2, ⟨.reg, slice s.odeIn.word 3 0⟩, ⟨.reg, slice s.odeIn.word 6 4⟩,
      ⟨.reg, slice s.odeIn.word 10 7⟩, false⟩ := by
  have hrow : (Instr.strReg 0#4 0#4 0#4).RowHas s.odeIn.word := ⟨_, rfl, hw⟩
  rw [State.Outputs, step_of_row hs hrow, Instr.withFieldsOf, exec_strReg, fieldVal_rd, fieldVal_rn, fieldVal_rm]

end

/-! ### The statements -/

/-- Settles O21. Each meaning drives the outputs of its form; a field's value is the field widened to a word. -/
theorem execOfLoadsAndStoresCompletes : Obligations.ExecOfLoadsAndStoresCompletes := by
  intro s rd rn rm imm3
  exact ⟨exec_ldrImm s rd rn imm3, exec_ldrReg s rd rn rm, exec_strImm s rd rn imm3, exec_strReg s rd rn rm⟩

/-- Settles O8. The row's words decode to `ldr` with its fields; the worked examples are evaluated. -/
theorem loadImmediateWordsGiveLdr : Obligations.LoadImmediateWordsGiveLdr := by
  exact ⟨fun _ => outputs_of_ldrImm_row, by decide, by decide⟩

/-- Settles O9. Row by row, as for O8. -/
theorem loadIndexedAndStoreWordsGiveTheirForms : Obligations.LoadIndexedAndStoreWordsGiveTheirForms := by
  refine ⟨fun s hs => ⟨?_, ?_, ?_⟩, by decide, by decide, by decide, by decide, by decide⟩
  · exact outputs_of_ldrReg_row hs
  · exact outputs_of_strImm_row hs
  · exact outputs_of_strReg_row hs

/-- Settles O19. The seven rows are the unknown patterns but the last, X8; O20 gives the outputs on all eight. -/
theorem unmappedLoadStoreAndHiWordsGiveTheUnknownOutcome :
    Obligations.UnmappedLoadStoreAndHiWordsGiveTheUnknownOutcome := by
  refine ⟨fun s hs p hp hw => ?_, by decide⟩
  have hmem : (⟨p.1, p.2⟩ : Pattern) ∈ unknownPatterns.dropLast :=
    List.mem_map_of_mem (f := fun q : Word16 × Word16 => (⟨q.1, q.2⟩ : Pattern)) hp
  rw [← unknownOutcome_eq]
  exact outputs_of_unknownPattern hs (List.mem_of_mem_dropLast hmem) hw

end Sys2Proof.Machine
end

section
/-! PROOFS. Branches (43_branch.md): what the eight meanings drive, by their selector, how the target depends on its two summands, and
from these the statements about class 2. -/

namespace Sys2Proof.Machine

/-! ### What a branch drives (R81, R82) -/

/-- The branch instruction that a value of word[12:10] selects (R81, D11). -/
def branchInstr (sub3 : BitVec 3) (off10 : BitVec 10) : Instr :=
  mux8 sub3 (.bzs off10) (.bzc off10) (.bcs off10) (.bcc off10) (.bge off10) (.blt off10) (.b off10) (.bl off10)

theorem decodeBranch_eq (w : Word16) : decodeBranch w = branchInstr (fieldSub3 w) (fieldOff10 w) := rfl

/-- The form F_BR has one operand, the target, and no branch is unknown. -/
theorem emit_branch (sub3 : BitVec 3) (target : Word16) :
    emit 2#3 (branchMnemonic sub3) .br target 0#16 0#16
      = ⟨2#3, branchMnemonic sub3, .br, 1#2, ⟨.addr, target⟩, unused, unused, false⟩ := by
  have hflag : unknownFlag (branchMnemonic sub3) = false := decide_eq_false (branchMnemonic_ne_unknown sub3)
  rw [emit, hflag]
  rfl

theorem exec_branchInstr (sub3 : BitVec 3) (off10 : BitVec 10) (s : State) :
    exec (branchInstr sub3 off10) s = .next { s with odeOut :=
      ⟨2#3, branchMnemonic sub3, .br, 1#2, ⟨.addr, branchTarget s.odeIn.nextPc off10⟩, unused, unused, false⟩ } := by
  rw [← emit_branch]
  rcases bitVec3_cases sub3 with h | h | h | h | h | h | h | h <;> rw [h] <;> rfl

/-! ### The words of the eight rows of class 2 -/

/-- A word in a row has the row's value in every field that the row fixes. -/
theorem extract_of_row {w bits m : Word16} {lo n : Nat} (hw : inRow w bits m)
    (hm : m.extractLsb' lo n = BitVec.allOnes n) : w.extractLsb' lo n = bits.extractLsb' lo n := by
  rw [← hw, BitVec.extractLsb'_and, hm, BitVec.and_allOnes]

/-- The row of a branch: class 2 and its selector. -/
def branchRowBits (sub3 : BitVec 3) : Word16 := place 2#3 13 ||| place sub3 10

theorem branchRowBits_cls (sub3 : BitVec 3) : (branchRowBits sub3).extractLsb' 13 3 = 2#3 := by
  revert sub3; decide

theorem branchRowBits_sub3 (sub3 : BitVec 3) : (branchRowBits sub3).extractLsb' 10 3 = sub3 := by
  revert sub3; decide

theorem decodeWord_of_branch_row {w : Word16} {sub3 : BitVec 3} (hw : inRow w (branchRowBits sub3) 0xFC00#16) :
    decodeWord w = branchInstr sub3 (fieldOff10 w) := by
  have hcls : fieldCls w = 2#3 := by rw [fieldCls_eq, extract_of_row hw rfl, branchRowBits_cls]
  have hsub : fieldSub3 w = sub3 := by rw [fieldSub3_eq, extract_of_row hw rfl, branchRowBits_sub3]
  rw [decodeWord, hcls, mux8_two, decodeBranch_eq, hsub]

/-- The target as R82 writes it: the sum over the naturals, with the offset read from the word. -/
theorem branchTarget_of_word (w pc : Word16) :
    branchTarget pc (fieldOff10 w) = BitVec.ofNat 16 ((pc.toNat + 2 * (slice w 9 0).toNat) % 1024) := by
  apply BitVec.eq_of_toNat_eq
  rw [branchTarget_toNat, off10_toNat, BitVec.toNat_ofNat]
  omega

theorem outputs_of_branch_row {s : State} {sub3 : BitVec 3} (hs : s.EvaluatesOde)
    (hw : inRow s.odeIn.word (branchRowBits sub3) 0xFC00#16) :
    s.Outputs ⟨2#3, branchMnemonic sub3, .br, 1#2,
      ⟨.addr, BitVec.ofNat 16 ((s.odeIn.nextPc.toNat + 2 * (slice s.odeIn.word 9 0).toNat) % 1024)⟩,
      unused, unused, false⟩ := by
  rw [State.Outputs, step_eq_exec_word hs, decodeWord_of_branch_row hw, exec_branchInstr, branchTarget_of_word]

/-! ### What cannot matter for the target (R83) -/

/-- A window of `n` low bits is the residue modulo `2 ^ n`. -/
theorem toNat_and_lowMask (x : Word16) {n : Nat} (hn : n ≤ 16) :
    (x &&& BitVec.ofNat 16 (2 ^ n - 1)).toNat = x.toNat % 2 ^ n := by
  have hpow : 2 ^ n ≤ 2 ^ 16 := Nat.pow_le_pow_right (by omega) hn
  have hmask : (BitVec.ofNat 16 (2 ^ n - 1)).toNat = 2 ^ n - 1 := by
    rw [BitVec.toNat_ofNat, Nat.mod_eq_of_lt]
    omega
  rw [BitVec.toNat_and, hmask, Nat.and_two_pow_sub_one_eq_mod]

/-- Read signed, the offset differs by a multiple of 1024; doubled, and so is the sum, by a multiple of 2048. -/
theorem signed_sum_modEq (pc : Word16) (off : BitVec 10) :
    (pc + 2#16 * off.signExtend 16).toNat ≡ (pc + 2#16 * off.setWidth 16).toNat [MOD 2 ^ 11] := by
  have hoff := off.isLt
  rw [Nat.ModEq]
  simp only [BitVec.toNat_add, BitVec.toNat_mul, BitVec.toNat_signExtend, BitVec.toNat_setWidth, BitVec.toNat_ofNat]
  split <;> omega

theorem branchTargetWith_signed {n : Nat} (hn : n ≤ 11) (pc : Word16) (off : BitVec 10) :
    (pc + 2#16 * off.signExtend 16) &&& BitVec.ofNat 16 (2 ^ n - 1)
      = branchTargetWith (BitVec.ofNat 16 (2 ^ n - 1)) pc off := by
  apply BitVec.eq_of_toNat_eq
  rw [branchTargetWith, toNat_and_lowMask _ (by omega), toNat_and_lowMask _ (by omega)]
  exact (signed_sum_modEq pc off).of_dvd (pow_dvd_pow 2 hn)

theorem branchTarget_lt (pc : Word16) (off : BitVec 10) : (branchTarget pc off).toNat < 0x400 := by
  rw [branchTarget_toNat]
  exact Nat.mod_lt _ (by omega)

/-- Bit 9 of the offset has weight 1024 in the sum. -/
theorem branchTarget_congr_off {off off' : BitVec 10} (h : off.extractLsb' 0 9 = off'.extractLsb' 0 9)
    (pc : Word16) : branchTarget pc off = branchTarget pc off' := by
  have hmod : off.toNat % 512 = off'.toNat % 512 := by
    simpa [BitVec.extractLsb'_toNat] using congrArg BitVec.toNat h
  apply BitVec.eq_of_toNat_eq
  rw [branchTarget_toNat, branchTarget_toNat]
  omega

/-- An even number is added and an even modulus taken. -/
theorem branchTarget_getLsbD_zero (pc : Word16) (off : BitVec 10) :
    (branchTarget pc off).getLsbD 0 = pc.getLsbD 0 := by
  have hmod : (branchTarget pc off).toNat % 2 = pc.toNat % 2 := by
    rw [branchTarget_toNat]
    omega
  rw [BitVec.getLsbD, BitVec.getLsbD, Nat.testBit_zero, Nat.testBit_zero, hmod]

/-! ### The statements -/

/-- Settles O22. Each branch is the one its selector picks, which drives its mnemonic and the target. -/
theorem execOfBranchesCompletes : Obligations.ExecOfBranchesCompletes := by
  intro s off10
  have hexec (sub3 : BitVec 3) := exec_branchInstr sub3 off10 s
  exact ⟨hexec 0#3, hexec 1#3, hexec 2#3, hexec 3#3, hexec 4#3, hexec 5#3, hexec 6#3, hexec 7#3⟩

/-- Settles O10. The eight rows are those of the eight selector values, in order; the worked examples are evaluated. -/
theorem branchWordsGiveMnemonicAndTarget : Obligations.BranchWordsGiveMnemonicAndTarget := by
  refine ⟨fun s hs p hp hw => ?_, by decide, by decide, by decide, by decide, by decide, by decide, by decide,
    by decide, by decide, by decide⟩
  have hmem : p ∈ [0#3, 1#3, 2#3, 3#3, 4#3, 5#3, 6#3, 7#3].map
      fun sub3 => (branchRowBits sub3, branchMnemonic sub3) := hp
  obtain ⟨sub3, -, rfl⟩ := List.mem_map.1 hmem
  exact outputs_of_branch_row hs hw

/-- Settles O11. Every part is about the sum modulo a power of two: 1024 for the target, at most 2048 for a window mask. -/
theorem branchTargetIgnoresSignBitNineAndHighAddressBits :
    Obligations.BranchTargetIgnoresSignBitNineAndHighAddressBits :=
  ⟨branchTarget_lt, fun _ pc off hn => branchTargetWith_signed hn pc off,
    fun pc _ _ h => branchTarget_congr_off h pc, fun _ _ off h => branchTarget_congr_low_bits h off,
    branchTarget_getLsbD_zero⟩

end Sys2Proof.Machine
end

section
/-! PROOFS. Move immediate (44_move_immediate.md): what the two meanings drive, what a step on a word of either row outputs, and from
these the statements about class 3. -/

namespace Sys2Proof.Machine

/-! ### What each meaning drives (R93, R94) -/

section
variable (s : State) (rd : RegIdx) (imm8 : BitVec 8)

theorem exec_movImm : exec (.movImm rd imm8) s = .next { s with odeOut :=
    ⟨3#3, .mov, .movi, 2#2, ⟨.reg, fieldVal rd⟩, ⟨.imm, fieldVal imm8⟩, unused, false⟩ } := by
  rfl

/-- The immediate is driven unshifted, as for `mov` (D10). -/
theorem exec_movt : exec (.movt rd imm8) s = .next { s with odeOut :=
    ⟨3#3, .movt, .movi, 2#2, ⟨.reg, fieldVal rd⟩, ⟨.imm, fieldVal imm8⟩, unused, false⟩ } := by
  rfl

end

/-! ### The words of the two rows of class 3, told apart by bit 12 (R92) -/

section
variable {s : State} (hs : s.EvaluatesOde)
include hs

theorem outputs_of_movImm_row (hw : inRow s.odeIn.word 0x6000#16 0xF000#16) :
    s.Outputs ⟨3#3, .mov, .movi, 2#2, ⟨.reg, slice s.odeIn.word 3 0⟩, ⟨.imm, slice s.odeIn.word 11 4⟩,
      unused, false⟩ := by
  have hrow : (Instr.movImm 0#4 0#8).RowHas s.odeIn.word := ⟨_, rfl, hw⟩
  rw [State.Outputs, step_of_row hs hrow, Instr.withFieldsOf, exec_movImm, fieldVal_rd, fieldVal_imm8]

theorem outputs_of_movt_row (hw : inRow s.odeIn.word 0x7000#16 0xF000#16) :
    s.Outputs ⟨3#3, .movt, .movi, 2#2, ⟨.reg, slice s.odeIn.word 3 0⟩, ⟨.imm, slice s.odeIn.word 11 4⟩,
      unused, false⟩ := by
  have hrow : (Instr.movt 0#4 0#8).RowHas s.odeIn.word := ⟨_, rfl, hw⟩
  rw [State.Outputs, step_of_row hs hrow, Instr.withFieldsOf, exec_movt, fieldVal_rd, fieldVal_imm8]

end

/-! ### The statements -/

/-- Settles O23. Both meanings drive the form F_MOVI; a field's value is the field widened to a word. -/
theorem execOfMoveImmediatesCompletes : Obligations.ExecOfMoveImmediatesCompletes := by
  intro s rd imm8
  exact ⟨exec_movImm s rd imm8, exec_movt s rd imm8⟩

/-- Settles O12. Each row's words decode to its instruction with the word's fields; the worked examples are evaluated. -/
theorem moveImmediateWordsGiveMovAndMovt : Obligations.MoveImmediateWordsGiveMovAndMovt := by
  refine ⟨fun s hs => ⟨?_, ?_⟩, by decide, by decide, by decide, by decide⟩
  · exact outputs_of_movImm_row hs
  · exact outputs_of_movt_row hs

end Sys2Proof.Machine
end

section
/-! PROOFS. Register arithmetic (45_arith_register.md): what the four meanings drive, what a step on a word of any of the four rows
outputs, and from these the statements about class 4. -/

namespace Sys2Proof.Machine

/-- The form F_R3 has three operands, all of kind REG (R68). -/
theorem emit_r3 {m : Mnemonic} (hm : m ≠ .unknown) (cls : BitVec 3) (x y z : Word16) :
    emit cls m .r3 x y z = ⟨cls, m, .r3, 3#2, ⟨.reg, x⟩, ⟨.reg, y⟩, ⟨.reg, z⟩, false⟩ := by
  have hflag : unknownFlag m = false := decide_eq_false hm
  rw [emit, hflag]
  rfl

/-! ### What each meaning drives (R96 to R99) -/

/-- The instruction of class 4 that a value of word[12:11] selects (R95, D14). -/
def arithRegisterInstr (sub2 : BitVec 2) (rd rn rm : RegIdx) : Instr :=
  mux4 sub2 (.addReg rd rn rm) (.subReg rd rn rm) (.adc rd rn rm) (.sbc rd rn rm)

/-- Its mnemonic. -/
def arithRegisterMnemonic (sub2 : BitVec 2) : Mnemonic := mux4 sub2 .add .sub .adc .sbc

theorem decodeArithRegister_eq (w : Word16) :
    decodeArithRegister w = arithRegisterInstr (fieldSub2 w) (fieldRd w) (fieldRn w) (fieldRm w) := rfl

theorem arithRegisterMnemonic_ne_unknown (sub2 : BitVec 2) : arithRegisterMnemonic sub2 ≠ .unknown := by
  revert sub2; decide

theorem exec_arithRegisterInstr (sub2 : BitVec 2) (rd rn rm : RegIdx) (s : State) :
    exec (arithRegisterInstr sub2 rd rn rm) s = .next { s with odeOut := ⟨4#3, arithRegisterMnemonic sub2, .r3, 3#2,
      ⟨.reg, fieldVal rd⟩, ⟨.reg, fieldVal rn⟩, ⟨.reg, fieldVal rm⟩, false⟩ } := by
  rw [← emit_r3 (arithRegisterMnemonic_ne_unknown sub2)]
  rcases bitVec2_cases sub2 with h | h | h | h <;> rw [h] <;> rfl

/-! ### The words of the four rows of class 4 -/

/-- The row of a register arithmetic instruction: class 4 and its selector. -/
def arithRegisterRowBits (sub2 : BitVec 2) : Word16 := place 4#3 13 ||| place sub2 11

theorem arithRegisterRowBits_cls (sub2 : BitVec 2) : (arithRegisterRowBits sub2).extractLsb' 13 3 = 4#3 := by
  revert sub2; decide

theorem arithRegisterRowBits_sub2 (sub2 : BitVec 2) : (arithRegisterRowBits sub2).extractLsb' 11 2 = sub2 := by
  revert sub2; decide

theorem decodeWord_of_arithRegister_row {w : Word16} {sub2 : BitVec 2}
    (hw : inRow w (arithRegisterRowBits sub2) 0xF800#16) :
    decodeWord w = arithRegisterInstr sub2 (fieldRd w) (fieldRn w) (fieldRm w) := by
  have hcls : fieldCls w = 4#3 := by rw [fieldCls_eq, extract_of_row hw rfl, arithRegisterRowBits_cls]
  have hsub : fieldSub2 w = sub2 := by rw [fieldSub2_eq, extract_of_row hw rfl, arithRegisterRowBits_sub2]
  rw [decodeWord, hcls, mux8_four, decodeArithRegister_eq, hsub]

theorem outputs_of_arithRegister_row {s : State} (hs : s.EvaluatesOde) (sub2 : BitVec 2)
    (hw : inRow s.odeIn.word (arithRegisterRowBits sub2) 0xF800#16) :
    s.Outputs ⟨4#3, arithRegisterMnemonic sub2, .r3, 3#2, ⟨.reg, slice s.odeIn.word 3 0⟩,
      ⟨.reg, slice s.odeIn.word 6 4⟩, ⟨.reg, slice s.odeIn.word 10 7⟩, false⟩ := by
  rw [State.Outputs, step_eq_exec_word hs, decodeWord_of_arithRegister_row hw, exec_arithRegisterInstr, fieldVal_rd,
    fieldVal_rn, fieldVal_rm]

/-! ### The statements -/

/-- Settles O24. Each of the four is the one its selector picks, which drives its mnemonic and the three registers. -/
theorem execOfRegisterArithmeticCompletes : Obligations.ExecOfRegisterArithmeticCompletes := by
  intro s rd rn rm
  have hexec (sub2 : BitVec 2) := exec_arithRegisterInstr sub2 rd rn rm s
  exact ⟨hexec 0#2, hexec 1#2, hexec 2#2, hexec 3#2⟩

/-- Settles O13. The four rows are those of the four selector values, in order; the worked examples are evaluated. -/
theorem arithRegisterWordsGiveThreeRegisters : Obligations.ArithRegisterWordsGiveThreeRegisters := by
  refine ⟨fun s hs => ?_, by decide, by decide, by decide, by decide, by decide, by decide⟩
  have hrow := outputs_of_arithRegister_row hs
  exact ⟨hrow 0#2, hrow 1#2, hrow 2#2, hrow 3#2⟩

end Sys2Proof.Machine
end

section
/-! PROOFS. Class 5 (46_arith_imm_compare_hi.md): what the meanings of the immediate arithmetic, of the compare and of the hi-register
group drive, what a step on a word of one of their rows outputs, and from these the statements about class 5. -/

namespace Sys2Proof.Machine

/-! ### What the immediate forms and the compare drive (R101 to R103) -/

section
variable (s : State) (rd rn rm : RegIdx) (imm4 : BitVec 4)

theorem exec_addImm : exec (.addImm rd rn imm4) s = .next { s with odeOut :=
    ⟨5#3, .add, .ri4, 3#2, ⟨.reg, fieldVal rd⟩, ⟨.reg, fieldVal rn⟩, ⟨.imm, fieldVal imm4⟩, false⟩ } := by
  rfl

theorem exec_subImm : exec (.subImm rd rn imm4) s = .next { s with odeOut :=
    ⟨5#3, .sub, .ri4, 3#2, ⟨.reg, fieldVal rd⟩, ⟨.reg, fieldVal rn⟩, ⟨.imm, fieldVal imm4⟩, false⟩ } := by
  rfl

/-- No result register: the form F_CMP shows the two registers compared (D17). -/
theorem exec_cmp : exec (.cmp rn rm) s = .next { s with odeOut :=
    ⟨5#3, .cmp, .cmp, 2#2, ⟨.reg, fieldVal rn⟩, ⟨.reg, fieldVal rm⟩, unused, false⟩ } := by
  rfl

end

/-! ### The words of sub-cases 0, 1 and 3 (R100) -/

section
variable {s : State} (hs : s.EvaluatesOde)
include hs

theorem outputs_of_addImm_row (hw : inRow s.odeIn.word 0xA000#16 0xF800#16) :
    s.Outputs ⟨5#3, .add, .ri4, 3#2, ⟨.reg, slice s.odeIn.word 3 0⟩, ⟨.reg, slice s.odeIn.word 6 4⟩,
      ⟨.imm, slice s.odeIn.word 10 7⟩, false⟩ := by
  have hrow : (Instr.addImm 0#4 0#4 0#4).RowHas s.odeIn.word := ⟨_, rfl, hw⟩
  rw [State.Outputs, step_of_row hs hrow, Instr.withFieldsOf, exec_addImm, fieldVal_rd, fieldVal_rn, fieldVal_imm4]

theorem outputs_of_subImm_row (hw : inRow s.odeIn.word 0xA800#16 0xF800#16) :
    s.Outputs ⟨5#3, .sub, .ri4, 3#2, ⟨.reg, slice s.odeIn.word 3 0⟩, ⟨.reg, slice s.odeIn.word 6 4⟩,
      ⟨.imm, slice s.odeIn.word 10 7⟩, false⟩ := by
  have hrow : (Instr.subImm 0#4 0#4 0#4).RowHas s.odeIn.word := ⟨_, rfl, hw⟩
  rw [State.Outputs, step_of_row hs hrow, Instr.withFieldsOf, exec_subImm, fieldVal_rd, fieldVal_rn, fieldVal_imm4]

/-- word[3:0] is in neither operand, so the word's value there does not matter. -/
theorem outputs_of_cmp_row (hw : inRow s.odeIn.word 0xB800#16 0xF800#16) :
    s.Outputs ⟨5#3, .cmp, .cmp, 2#2, ⟨.reg, slice s.odeIn.word 6 4⟩, ⟨.reg, slice s.odeIn.word 10 7⟩,
      unused, false⟩ := by
  have hrow : (Instr.cmp 0#4 0#4).RowHas s.odeIn.word := ⟨_, rfl, hw⟩
  rw [State.Outputs, step_of_row hs hrow, Instr.withFieldsOf, exec_cmp, fieldVal_rn, fieldVal_rm]

end

/-! ### What the hi-register group drives (R104 to R111)

`HI_TABLE` gives each value of `FN3` its case (D18), and the case gives the outputs. -/

/-- The instruction of the hi-register group that a value of `FN3` selects (R104). -/
def hiInstr (fn3 : BitVec 3) (rd rm : RegIdx) : Instr :=
  mux8 fn3 (.movReg rd rm) (.mvn rd rm) (.movs rd rm) .unknownX7 (.msrCspr rm) (.msrSpsr rm) (.mrsCspr rd) (.mrsSpsr rd)

theorem decodeHi_eq (w : Word16) : decodeHi w = hiInstr (fieldFn3 w) (fieldRd w) (fieldRm w) := rfl

/-- The outputs of a case of `HI_TABLE`, from the values of the fields `RD` and `RM` (R105 to R111). -/
def hiOutputs (rd rm : Word16) : HiCase → OdeOut
  | .move m => ⟨5#3, m, .hi2, 2#2, ⟨.rega, rd⟩, ⟨.rega, rm⟩, unused, false⟩
  | .msr p => ⟨5#3, .msr, .msr, 2#2, ⟨.psr, p.val⟩, ⟨.reg, rm⟩, unused, false⟩
  | .mrs p => ⟨5#3, .mrs, .mrs, 2#2, ⟨.reg, rd⟩, ⟨.psr, p.val⟩, unused, false⟩
  | .unknown => unknownOutcome 5#3

theorem exec_hiInstr (fn3 : BitVec 3) (rd rm : RegIdx) (s : State) : exec (hiInstr fn3 rd rm) s
    = .next { s with odeOut := hiOutputs (fieldVal rd) (fieldVal rm) (Params.hiDefault fn3.toFin) } := by
  rcases bitVec3_cases fn3 with h | h | h | h | h | h | h | h <;> rw [h] <;> rfl

/-! ### The words of the rows of sub-case 2 -/

/-- The row of a hi-register instruction: class 5, sub-case 2 and its `FN3`. -/
def hiRowBits (fn3 : BitVec 3) : Word16 := place 5#3 13 ||| place 2#2 11 ||| place fn3 4

theorem hiRowBits_cls (fn3 : BitVec 3) : (hiRowBits fn3).extractLsb' 13 3 = 5#3 := by
  revert fn3; decide

theorem hiRowBits_sub2 (fn3 : BitVec 3) : (hiRowBits fn3).extractLsb' 11 2 = 2#2 := by
  revert fn3; decide

theorem hiRowBits_fn3 (fn3 : BitVec 3) : (hiRowBits fn3).extractLsb' 4 3 = fn3 := by
  revert fn3; decide

theorem decodeWord_of_hi_row {w : Word16} {fn3 : BitVec 3} (hw : inRow w (hiRowBits fn3) 0xF870#16) :
    decodeWord w = hiInstr fn3 (fieldRd w) (fieldRm w) := by
  have hcls : fieldCls w = 5#3 := by rw [fieldCls_eq, extract_of_row hw rfl, hiRowBits_cls]
  have hsub : fieldSub2 w = 2#2 := by rw [fieldSub2_eq, extract_of_row hw rfl, hiRowBits_sub2]
  have hfn : fieldFn3 w = fn3 := by rw [fieldFn3_eq, extract_of_row hw rfl, hiRowBits_fn3]
  rw [decodeWord, hcls, mux8_five, decodeArithImmCompareHi, hsub, mux4_two, decodeHi_eq, hfn]

/-- The state enters through the word alone: no privilege is checked (R148). -/
theorem outputs_of_hi_row {s : State} (hs : s.EvaluatesOde) (fn3 : BitVec 3)
    (hw : inRow s.odeIn.word (hiRowBits fn3) 0xF870#16) :
    s.Outputs (hiOutputs (slice s.odeIn.word 3 0) (slice s.odeIn.word 10 7) (Params.hiDefault fn3.toFin)) := by
  rw [State.Outputs, step_eq_exec_word hs, decodeWord_of_hi_row hw, exec_hiInstr, fieldVal_rd, fieldVal_rm]

/-! ### The statements -/

/-- Settles O25. Each meaning drives the outputs of its form; a field's value is the field widened to a word. -/
theorem execOfImmediateArithmeticAndCompareCompletes : Obligations.ExecOfImmediateArithmeticAndCompareCompletes := by
  intro s rd rn rm imm4
  exact ⟨exec_addImm s rd rn imm4, exec_subImm s rd rn imm4, exec_cmp s rn rm⟩

/-- Settles O26. The seven are those that `FN3` selects, but for 3, the unmapped value (X7). -/
theorem execOfHiRegisterGroupCompletes : Obligations.ExecOfHiRegisterGroupCompletes := by
  intro s rd rm
  have hexec (fn3 : BitVec 3) := exec_hiInstr fn3 rd rm s
  exact ⟨hexec 0#3, hexec 1#3, hexec 2#3, hexec 4#3, hexec 5#3, hexec 6#3, hexec 7#3⟩

/-- Settles O14. Each row's words decode to its instruction with the word's fields; the worked examples are evaluated. -/
theorem arithImmediateAndCompareWordsGiveTheirForms : Obligations.ArithImmediateAndCompareWordsGiveTheirForms := by
  refine ⟨fun s hs => ⟨?_, ?_, ?_⟩, by decide, by decide, by decide, by decide, by decide⟩
  · exact outputs_of_addImm_row hs
  · exact outputs_of_subImm_row hs
  · exact outputs_of_cmp_row hs

/-- Settles O15. The rows of `FN3` 0, 1 and 2, which the table maps to moves; the worked examples are evaluated. -/
theorem hiMoveWordsGiveAliasOperands : Obligations.HiMoveWordsGiveAliasOperands := by
  refine ⟨fun s hs => ?_, by decide, by decide, by decide, by decide, by decide, by decide, by decide⟩
  have hrow := outputs_of_hi_row hs
  exact ⟨hrow 0#3, hrow 1#3, hrow 2#3⟩

/-- Settles O16. The rows of `FN3` 4 to 7; the row masks leave the ignored bits open; the worked examples are evaluated. -/
theorem statusRegisterMoveWordsGiveNameAndRegister : Obligations.StatusRegisterMoveWordsGiveNameAndRegister := by
  refine ⟨fun s hs => ?_, by decide, by decide, by decide, by decide, by decide, by decide⟩
  have hrow := outputs_of_hi_row hs
  exact ⟨hrow 4#3, hrow 5#3, hrow 6#3, hrow 7#3⟩

end Sys2Proof.Machine
end

section
/-! PROOFS. Logical and shift (47_logical_shift.md): what the meanings of class 6 and class 7 drive, what a step on a word of one of
their rows outputs, and from these the statements about the two classes. -/

namespace Sys2Proof.Machine

/-! ### What each meaning drives (R115 to R122)

`LOGICAL_TABLE` and `SHIFT_TABLE` give each selector its mnemonic (D25, D26); the unassigned one, X8, gets the unknown outcome. -/

/-- The instruction of class 6 that a value of word[12:11] selects (R115, R119). -/
def logicalInstr (sub2 : BitVec 2) (rd rn rm : RegIdx) : Instr :=
  mux4 sub2 (.andReg rd rn rm) (.orr rd rn rm) (.eor rd rn rm) .unknownX8

theorem decodeLogical_eq (w : Word16) :
    decodeLogical w = logicalInstr (fieldSub2 w) (fieldRd w) (fieldRn w) (fieldRm w) := rfl

theorem exec_logicalInstr (sub2 : BitVec 2) (rd rn rm : RegIdx) (s : State) :
    exec (logicalInstr sub2 rd rn rm) s = .next { s with
      odeOut := emitCase 6#3 (Params.logicalDefault sub2.toFin) .r3 (fieldVal rd) (fieldVal rn) (fieldVal rm) } := by
  rcases bitVec2_cases sub2 with h | h | h | h <;> rw [h] <;> rfl

/-- The instruction of class 7 that a value of word[12] selects (R120). -/
def shiftInstr (sub1 : BitVec 1) (rd rn : RegIdx) (shamt : BitVec 5) : Instr :=
  mux2 sub1 (.lsl rd rn shamt) (.lsr rd rn shamt)

theorem decodeShift_eq (w : Word16) :
    decodeShift w = shiftInstr (fieldSub1 w) (fieldRd w) (fieldRn w) (fieldShamt w) := rfl

/-- The amount is driven as it is, and nothing is shifted by it (R121, R122). -/
theorem exec_shiftInstr (sub1 : BitVec 1) (rd rn : RegIdx) (shamt : BitVec 5) (s : State) :
    exec (shiftInstr sub1 rd rn shamt) s = .next { s with
      odeOut := emitCase 7#3 (Params.shiftDefault sub1.toFin) .sh (fieldVal rd) (fieldVal rn) (fieldVal shamt) } := by
  rcases bitVec1_cases sub1 with h | h <;> rw [h] <;> rfl

/-! ### The words of the four rows of class 6 -/

/-- The row of a word of class 6: the class and its selector. -/
def logicalRowBits (sub2 : BitVec 2) : Word16 := place 6#3 13 ||| place sub2 11

theorem logicalRowBits_cls (sub2 : BitVec 2) : (logicalRowBits sub2).extractLsb' 13 3 = 6#3 := by
  revert sub2; decide

theorem logicalRowBits_sub2 (sub2 : BitVec 2) : (logicalRowBits sub2).extractLsb' 11 2 = sub2 := by
  revert sub2; decide

theorem decodeWord_of_logical_row {w : Word16} {sub2 : BitVec 2} (hw : inRow w (logicalRowBits sub2) 0xF800#16) :
    decodeWord w = logicalInstr sub2 (fieldRd w) (fieldRn w) (fieldRm w) := by
  have hcls : fieldCls w = 6#3 := by rw [fieldCls_eq, extract_of_row hw rfl, logicalRowBits_cls]
  have hsub : fieldSub2 w = sub2 := by rw [fieldSub2_eq, extract_of_row hw rfl, logicalRowBits_sub2]
  rw [decodeWord, hcls, mux8_six, decodeLogical_eq, hsub]

theorem outputs_of_logical_row {s : State} (hs : s.EvaluatesOde) (sub2 : BitVec 2)
    (hw : inRow s.odeIn.word (logicalRowBits sub2) 0xF800#16) :
    s.Outputs (emitCase 6#3 (Params.logicalDefault sub2.toFin) .r3 (slice s.odeIn.word 3 0) (slice s.odeIn.word 6 4)
      (slice s.odeIn.word 10 7)) := by
  rw [State.Outputs, step_eq_exec_word hs, decodeWord_of_logical_row hw, exec_logicalInstr, fieldVal_rd, fieldVal_rn,
    fieldVal_rm]

/-! ### The words of the two rows of class 7 -/

/-- The row of a shift: class 7 and its selector. -/
def shiftRowBits (sub1 : BitVec 1) : Word16 := place 7#3 13 ||| place sub1 12

theorem shiftRowBits_cls (sub1 : BitVec 1) : (shiftRowBits sub1).extractLsb' 13 3 = 7#3 := by
  revert sub1; decide

theorem shiftRowBits_sub1 (sub1 : BitVec 1) : (shiftRowBits sub1).extractLsb' 12 1 = sub1 := by
  revert sub1; decide

theorem decodeWord_of_shift_row {w : Word16} {sub1 : BitVec 1} (hw : inRow w (shiftRowBits sub1) 0xF000#16) :
    decodeWord w = shiftInstr sub1 (fieldRd w) (fieldRn w) (fieldShamt w) := by
  have hcls : fieldCls w = 7#3 := by rw [fieldCls_eq, extract_of_row hw rfl, shiftRowBits_cls]
  have hsub : fieldSub1 w = sub1 := by rw [fieldSub1_eq, extract_of_row hw rfl, shiftRowBits_sub1]
  rw [decodeWord, hcls, mux8_seven, decodeShift_eq, hsub]

theorem outputs_of_shift_row {s : State} (hs : s.EvaluatesOde) (sub1 : BitVec 1)
    (hw : inRow s.odeIn.word (shiftRowBits sub1) 0xF000#16) :
    s.Outputs (emitCase 7#3 (Params.shiftDefault sub1.toFin) .sh (slice s.odeIn.word 3 0) (slice s.odeIn.word 6 4)
      (slice s.odeIn.word 11 7)) := by
  rw [State.Outputs, step_eq_exec_word hs, decodeWord_of_shift_row hw, exec_shiftInstr, fieldVal_rd, fieldVal_rn,
    fieldVal_shamt]

/-! ### The statements -/

/-- Settles O27. Each of the five is the one its selector picks, which drives the mnemonic that the class's table gives it. -/
theorem execOfLogicalAndShiftsCompletes : Obligations.ExecOfLogicalAndShiftsCompletes := by
  intro s rd rn rm shamt
  have hlogical (sub2 : BitVec 2) := exec_logicalInstr sub2 rd rn rm s
  have hshift (sub1 : BitVec 1) := exec_shiftInstr sub1 rd rn shamt s
  exact ⟨hlogical 0#2, hlogical 1#2, hlogical 2#2, hshift 0#1, hshift 1#1⟩

/-- Settles O17. The rows of the three assigned selector values; the worked examples are evaluated. -/
theorem logicalWordsGiveThreeRegisters : Obligations.LogicalWordsGiveThreeRegisters := by
  refine ⟨fun s hs => ?_, by decide, by decide, by decide, by decide⟩
  have hrow := outputs_of_logical_row hs
  exact ⟨hrow 0#2, hrow 1#2, hrow 2#2⟩

/-- Settles O18. The rows of the two values of bit 12; the worked examples are evaluated. -/
theorem shiftWordsGiveRegistersAndAmount : Obligations.ShiftWordsGiveRegistersAndAmount := by
  refine ⟨fun s hs => ?_, by decide, by decide, by decide, by decide, by decide⟩
  have hrow := outputs_of_shift_row hs
  exact ⟨hrow 0#1, hrow 1#1⟩

end Sys2Proof.Machine
end

section
/-! PROOFS. The listing and the independence of the two blocks (70_reset_and_hazards.md, 49_rendering.md section 3), and the OPEN reading
of SET's top bit (90_conflicts.md C3). -/

namespace Sys2Proof.Machine

/-! ### The listing (R136, R137, R154) -/

/-- The line of a word is faithful when it is made from the engine's outputs for its own bytes at its own address. -/
theorem lineOf_faithful (a : Word16) (lo hi : Byte) :
    (lineOf a lo hi (ode (assembleWord lo hi) (nextPcAt a))).Faithful := rfl

/-- A step adds no line, or the line of the word it presents. -/
theorem step_listing_cases {s t : State} (h : step s = .next t) :
    t.listing = s.listing
      ∨ ∃ a lo hi, t.listing = s.listing ++ [lineOf a lo hi (ode (assembleWord lo hi) (nextPcAt a))] := by
  obtain ⟨-, rfl⟩ | ⟨-, rfl⟩ | ⟨-, a, lo, hi, -, rfl⟩ | ⟨-, -, rfl⟩ | ⟨-, -, rfl⟩ | ⟨-, -, rfl⟩ := step_cases h
  case inr.inr.inl => exact .inr ⟨a, lo, hi, rfl⟩
  all_goals exact .inl rfl

/-! ### GET after SET when bit `msp` is cleared (C3) -/

section
variable {v x r : Word32} {msp lsp : Nat} (hlo : lsp ≤ msp) (hhi : msp ≤ 31)
include hlo hhi

/-- With bit `msp` cleared nothing of the old value is left in the field that GET reads. -/
theorem getBits_of_setBitsWith_clear (hr : setBitsWith .clear v msp lsp x = .ok r) :
    getBits r msp lsp = .ok (x &&& mask (msp - lsp)) := by
  refine (getBits_eq_ok_iff hlo hhi).2 fun i => ?_
  rw [BitVec.getLsbD_and, mask_getLsbD, (setBitsWith_eq_ok_iff hlo hhi).1 hr]
  rcases lt_trichotomy (lsp + i) msp with h | h | h
  · have hi : i < 32 ∧ i < msp - lsp := by omega
    simp [h, h.le, hi]
  · simp [← h]
  · have hi : ¬ i < msp - lsp := by omega
    simp [hi, h]

end

/-! ### The statements -/

/-- Settles O42. The lines that were there stay, and the one line a step can add is made from its own bytes and address. -/
theorem everyStepKeepsTheListingFaithful : Obligations.EveryStepKeepsTheListingFaithful := by
  intro s t hs hstep l hl
  obtain hkeep | ⟨a, lo, hi, hadd⟩ := step_listing_cases hstep
  · exact hs l (hkeep ▸ hl)
  · rw [hadd, List.mem_append, List.mem_singleton] at hl
    obtain hold | rfl := hl
    · exact hs l hold
    · exact lineOf_faithful a lo hi

/-- Settles O40. Each evaluation drives its own block's outputs and reads its own block's inputs, which the other leaves alone. -/
theorem evaluationsOfTheTwoBlocksCommute : Obligations.EvaluationsOfTheTwoBlocksCommute := fun _ =>
  ⟨_, _, _, step_ode rfl, step_bfu rfl, step_bfu rfl, step_ode rfl⟩

/-- Settles O36. -/
theorem clearedTopMakesTheDocumentsRoundTripHold : Obligations.ClearedTopMakesTheDocumentsRoundTripHold := by
  intro v x msp lsp hlo hhi
  have hr := setBitsWith_ok (top := .clear) (v := v) (n := x) ((rangeOk_iff msp lsp).2 ⟨hlo, hhi⟩)
  exact ⟨_, hr, getBits_of_setBitsWith_clear hlo hhi hr⟩

end Sys2Proof.Machine
end

section
/-! PROOFS. Rendering (49_rendering.md): digits, the fragment of each kind of operand, how a form lays its fragments out, and from these
the statements about the text of an instruction and of a line. -/

namespace Sys2Proof.Machine

/-! ### Hexadecimal digits (R130, D24) -/

theorem hexDigit_eq_getD (d : BitVec 4) : hexDigit d = "0123456789ABCDEF".toList.getD d.toNat '?' := by
  revert d; decide

theorem hexDigit_mem (d : BitVec 4) : hexDigit d ∈ "0123456789ABCDEF".toList := by
  revert d; decide

theorem hexDigit_injective : Function.Injective hexDigit := by
  unfold Function.Injective
  decide

theorem mem_hex2 {v : Byte} {c : Char} (h : c ∈ hex2 v) : ∃ d, c = hexDigit d := by
  simp only [hex2, List.mem_cons, List.not_mem_nil, or_false] at h
  obtain rfl | rfl := h
  · exact ⟨_, rfl⟩
  · exact ⟨_, rfl⟩

theorem mem_hex4 {v : Word16} {c : Char} (h : c ∈ hex4 v) : ∃ d, c = hexDigit d :=
  (List.mem_append.1 h).elim mem_hex2 mem_hex2

@[simp] theorem hex4_length (v : Word16) : (hex4 v).length = 4 := rfl

/-- The digit of a nibble, with the nibble as a quotient and a remainder of the whole number. -/
theorem hexDigit_extract {n : Nat} (v : BitVec n) (lo : Nat) :
    hexDigit (v.extractLsb' lo 4) = "0123456789ABCDEF".toList.getD (v.toNat / 2 ^ lo % 16) '?' := by
  rw [hexDigit_eq_getD, BitVec.extractLsb'_toNat, Nat.shiftRight_eq_div_pow]

theorem hex2_eq_hexDigits (v : Byte) : hex2 v = hexDigits v.toNat [16, 1] := by
  simp only [hex2, hexDigit_extract]
  rfl

theorem hex4_eq_hexDigits (v : Word16) : hex4 v = hexDigits v.toNat [4096, 256, 16, 1] := by
  have hhi : (v.extractLsb' 8 8).toNat = v.toNat / 256 % 256 := by
    rw [BitVec.extractLsb'_toNat, Nat.shiftRight_eq_div_pow]
  have hlo : (v.extractLsb' 0 8).toNat = v.toNat % 256 := by simp [BitVec.extractLsb'_toNat]
  have h3 : v.toNat / 256 % 256 / 16 % 16 = v.toNat / 4096 % 16 := by omega
  have h2 : v.toNat / 256 % 256 / 1 % 16 = v.toNat / 256 % 16 := by omega
  have h1 : v.toNat % 256 / 16 % 16 = v.toNat / 16 % 16 := by omega
  have h0 : v.toNat % 256 / 1 % 16 = v.toNat / 1 % 16 := by omega
  rw [hex4, hex2_eq_hexDigits, hex2_eq_hexDigits, hhi, hlo]
  simp only [hexDigits, List.map_cons, List.map_nil, h3, h2, h1, h0, List.cons_append, List.nil_append]

/-- A number below 1024 has 0 as its first digit and 0 to 3 as its second. -/
theorem hex4_first_digits {t : Word16} (h : t.toNat < 0x400) :
    (hex4 t).head? = some '0' ∧ (hex4 t)[1]? ∈ [some '0', some '1', some '2', some '3'] := by
  have hfirst : t.toNat / 4096 % 16 = 0 := by omega
  have hsecond : t.toNat / 256 % 16 = 0 ∨ t.toNat / 256 % 16 = 1 ∨ t.toNat / 256 % 16 = 2 ∨ t.toNat / 256 % 16 = 3 := by
    omega
  rw [hex4_eq_hexDigits]
  obtain h | h | h | h := hsecond <;> simp [hexDigits, hfirst, h]

theorem hex2_injective : Function.Injective hex2 := by
  intro v v' h
  simp only [hex2, List.cons.injEq, and_true] at h
  obtain ⟨hhi, hlo⟩ := h
  have hhi := congrArg BitVec.toNat (hexDigit_injective hhi)
  have hlo := congrArg BitVec.toNat (hexDigit_injective hlo)
  simp only [BitVec.extractLsb'_toNat, Nat.shiftRight_eq_div_pow] at hhi hlo
  exact BitVec.eq_of_toNat_eq (by omega)

theorem hex4_injective : Function.Injective hex4 := by
  intro v v' h
  obtain ⟨hhi, hlo⟩ := List.append_inj h rfl
  have hhi := congrArg BitVec.toNat (hex2_injective hhi)
  have hlo := congrArg BitVec.toNat (hex2_injective hlo)
  simp only [BitVec.extractLsb'_toNat, Nat.shiftRight_eq_div_pow] at hhi hlo
  exact BitVec.eq_of_toNat_eq (by omega)

/-! ### Decimal numbers (R127, R129) -/

/-- Only 0 is written with a leading 0. -/
theorem toDigits_head?_ne_zero {n : Nat} (h : 0 < n) : (Nat.toDigits 10 n).head? ≠ some '0' := by
  induction n using Nat.strongRecOn with
  | ind n ih =>
    by_cases hlt : n < 10
    · rw [Nat.toDigits_of_lt_base hlt, List.head?_cons, ne_eq, Option.some.injEq, Nat.digitChar_eq_zero]
      omega
    · rw [Nat.toDigits_of_base_le (by omega) (by omega), List.head?_append_of_ne_nil _ Nat.toDigits_ne_nil]
      exact ih (n / 10) (by omega) (by omega)

theorem isDigit_of_mem_decimal {v : Word16} {c : Char} (h : c ∈ decimal v) : c.isDigit = true :=
  Nat.isDigit_of_mem_toDigits (by omega) le_rfl h

/-- The digits of a number denote it. -/
theorem foldl_decimal (v : Word16) : (decimal v).foldl (fun a c => 10 * a + (c.toNat - 48)) 0 = v.toNat :=
  Nat.ofDigitChars_eq_foldl.symm.trans Nat.ofDigitChars_ten_toDigits

theorem decimal_injective : Function.Injective decimal := by
  intro v v' h
  exact BitVec.eq_of_toNat_eq (by rw [← foldl_decimal v, h, foldl_decimal])

theorem isDecimal_decimal (v : Word16) : isDecimal (decimal v) v.toNat = true := by
  have hdigits : (decimal v).all Char.isDigit = true := List.all_eq_true.2 fun _ => isDigit_of_mem_decimal
  have hlead : (decimal v).length = 1 ∨ 2 ≤ (decimal v).length ∧ (decimal v).head? ≠ some '0' := by
    by_cases hlt : v.toNat < 10
    · exact .inl (by rw [decimal, Nat.toDigits_of_lt_base hlt, List.length_singleton])
    · have hlen : ¬ (decimal v).length ≤ 1 := by
        rwa [decimal, Nat.length_toDigits_le_iff (by omega) (by omega), pow_one]
      exact .inr ⟨by omega, toDigits_head?_ne_zero (by omega)⟩
  simpa [isDecimal, hdigits, foldl_decimal] using hlead

/-! ### Fragments (R127 to R131) -/

/-- What may stand in a fragment: ASCII, and nothing of a separator. -/
def FragmentText (t : Text) : Prop := ∀ c ∈ t, c.toNat < 128 ∧ c ≠ ' ' ∧ c ≠ ','

theorem FragmentText.ascii {t : Text} (h : FragmentText t) : ∀ c ∈ t, c.toNat < 128 := fun c hc => (h c hc).1

theorem FragmentText.cons {c : Char} {t : Text} (hc : c.toNat < 128 ∧ c ≠ ' ' ∧ c ≠ ',') (ht : FragmentText t) :
    FragmentText (c :: t) :=
  List.forall_mem_cons.2 ⟨hc, ht⟩

theorem decimal_fragmentText (v : Word16) : FragmentText (decimal v) := by
  intro c hc
  have hdigit := isDigit_of_mem_decimal hc
  refine ⟨?_, ?_, ?_⟩
  · have hle := (Char.isDigit_iff_toNat.1 hdigit).2
    exact hle.trans_lt (by decide)
  · rintro rfl
    exact absurd hdigit (by decide)
  · rintro rfl
    exact absurd hdigit (by decide)

theorem hexDigit_fragment (d : BitVec 4) : (hexDigit d).toNat < 128 ∧ hexDigit d ≠ ' ' ∧ hexDigit d ≠ ',' := by
  revert d; decide

theorem hex4_fragmentText (v : Word16) : FragmentText (hex4 v) := by
  intro c hc
  obtain ⟨d, rfl⟩ := mem_hex4 hc
  exact hexDigit_fragment d

theorem fragReg_fragmentText (v : Word16) : FragmentText (fragReg v) := (decimal_fragmentText v).cons (by decide)

theorem fragImm_fragmentText (v : Word16) : FragmentText (fragImm v) := (decimal_fragmentText v).cons (by decide)

/-- An operand of kind REGA is one of the two names or the plain register. -/
theorem fragRegAlias_cases (v : Word16) :
    (v = 15#16 ∧ fragRegAlias v = "pc".toList) ∨ (v = 14#16 ∧ fragRegAlias v = "lr".toList)
      ∨ fragRegAlias v = fragReg v := by
  unfold fragRegAlias
  split
  next h => exact .inl ⟨h, rfl⟩
  next =>
    split
    next h => exact .inr (.inl ⟨h, rfl⟩)
    next => exact .inr (.inr rfl)

/-- A status register reads `cspr` at 0 and `spsr` at every other value. -/
theorem fragPsr_cases (v : Word16) :
    (v = 0#16 ∧ fragPsr v = "cspr".toList) ∨ (v ≠ 0#16 ∧ fragPsr v = "spsr".toList) := by
  unfold fragPsr
  split
  next h => exact .inl ⟨h, rfl⟩
  next h => exact .inr ⟨h, rfl⟩

theorem fragPsr_eq_cspr_iff (v : Word16) : fragPsr v = "cspr".toList ↔ v = 0#16 := by
  obtain ⟨h, e⟩ | ⟨h, e⟩ := fragPsr_cases v
  · exact iff_of_true e h
  · exact iff_of_false (by simp [e]) h

theorem frag_fragmentText (o : Operand) : FragmentText (frag o) := by
  obtain ⟨k, v⟩ := o
  cases k with
  | none => exact fun _ h => absurd h List.not_mem_nil
  | reg => exact fragReg_fragmentText v
  | rega =>
    change FragmentText (fragRegAlias v)
    obtain ⟨-, h⟩ | ⟨-, h⟩ | h := fragRegAlias_cases v <;> rw [h]
    · simp [FragmentText]
    · simp [FragmentText]
    · exact fragReg_fragmentText v
  | imm => exact fragImm_fragmentText v
  | addr => exact hex4_fragmentText v
  | psr =>
    change FragmentText (fragPsr v)
    obtain ⟨-, h⟩ | ⟨-, h⟩ := fragPsr_cases v <;> rw [h]
    · simp [FragmentText]
    · simp [FragmentText]

theorem comma_notMem_frag (o : Operand) : ',' ∉ frag o := fun h => (frag_fragmentText o _ h).2.2 rfl

theorem hexDigit_ne_hash (d : BitVec 4) : hexDigit d ≠ '#' := by
  revert d; decide

/-- The character a fragment begins with tells whether there is an operand, and whether it is an immediate. -/
theorem frag_head (o : Operand) :
    (frag o = [] ↔ o.kind = .none) ∧ ((frag o).head? = some '#' ↔ o.kind = .imm) := by
  obtain ⟨k, v⟩ := o
  cases k with
  | none => simp [frag]
  | reg => simp [frag, fragReg]
  | rega =>
    obtain ⟨-, h⟩ | ⟨-, h⟩ | h := fragRegAlias_cases v <;> simp [frag, h, fragReg]
  | imm => simp [frag, fragImm]
  | addr => simp [frag, hex4, hex2, hexDigit_ne_hash]
  | psr => obtain ⟨-, h⟩ | ⟨-, h⟩ := fragPsr_cases v <;> simp [frag, h]

theorem fragReg_injective : Function.Injective fragReg := fun _ _ h => decimal_injective (List.cons.inj h).2

theorem fragImm_injective : Function.Injective fragImm := fun _ _ h => decimal_injective (List.cons.inj h).2

theorem fragRegAlias_injective : Function.Injective fragRegAlias := by
  intro v v' h
  obtain ⟨hv, e⟩ | ⟨hv, e⟩ | e := fragRegAlias_cases v <;>
    obtain ⟨hv', e'⟩ | ⟨hv', e'⟩ | e' := fragRegAlias_cases v' <;> rw [e, e'] at h
  case inl.inl => rw [hv, hv']
  case inr.inl.inr.inl => rw [hv, hv']
  case inr.inr.inr.inr => exact fragReg_injective h
  all_goals simp [fragReg] at h

/-- Among operands within their kind's bound the fragment names the operand: `spsr` alone reads the same at several values, all
but 1 past the bound. -/
theorem operand_eq_of_frag_eq {o o' : Operand} (hk : o.kind = o'.kind) (hf : frag o = frag o')
    (hb : o.val.toNat ≤ kindBound o.kind) (hb' : o'.val.toNat ≤ kindBound o'.kind) : o = o' := by
  obtain ⟨k, v⟩ := o
  obtain ⟨k', v'⟩ := o'
  obtain rfl : k = k' := hk
  suffices v = v' by rw [this]
  cases k with
  | none => exact BitVec.eq_of_toNat_eq ((Nat.le_zero.1 hb).trans (Nat.le_zero.1 hb').symm)
  | reg => exact fragReg_injective hf
  | rega => exact fragRegAlias_injective hf
  | imm => exact fragImm_injective hf
  | addr => exact hex4_injective hf
  | psr =>
    have hiff : v = 0#16 ↔ v' = 0#16 := by
      change fragPsr v = fragPsr v' at hf
      rw [← fragPsr_eq_cspr_iff, ← fragPsr_eq_cspr_iff, hf]
    simp only [kindBound] at hb hb'
    bv_omega

/-! ### The layout of a form (R132) -/

/-- The ways in which a form puts its fragments together. -/
inductive Layout where
  | empty | one | two | three | memory

/-- The layout of each form (R132); the unknown outcome has none to fill (R133). -/
def Layout.ofForm : Form → Layout
  | .none => .empty
  | .br => .one
  | .movi | .cmp | .hi2 | .msr | .mrs => .two
  | .r3 | .ri4 | .sh => .three
  | .memi | .memr => .memory

/-- The operand text of a layout, from the fragments of the three slots. -/
def Layout.join : Layout → Text → Text → Text → Text
  | .empty, _, _, _ => []
  | .one, a, _, _ => a
  | .two, a, b, _ => join2 a b
  | .three, a, b, c => join3 a b c
  | .memory, a, b, c => joinMem a b c

/-- The slots that a layout shows hold text, and the others none. -/
def Layout.Filled : Layout → Text → Text → Text → Prop
  | .empty, a, b, c => a = [] ∧ b = [] ∧ c = []
  | .one, a, b, c => a ≠ [] ∧ b = [] ∧ c = []
  | .two, a, b, c => a ≠ [] ∧ b ≠ [] ∧ c = []
  | .three, a, b, c | .memory, a, b, c => a ≠ [] ∧ b ≠ [] ∧ c ≠ []

theorem operandsText_eq (o : OdeOut) :
    operandsText o = (Layout.ofForm o.form).join (frag o.op0) (frag o.op1) (frag o.op2) := by
  rw [operandsText]
  cases o.form <;> rfl

theorem OdeOut.Shaped.filled {o : OdeOut} (h : o.Shaped) :
    (Layout.ofForm o.form).Filled (frag o.op0) (frag o.op1) (frag o.op2) := by
  obtain ⟨-, h0, h1, h2, -⟩ := h
  have e0 := (frag_head o.op0).1
  have e1 := (frag_head o.op1).1
  have e2 := (frag_head o.op2).1
  rw [h0] at e0
  rw [h1] at e1
  rw [h2] at e2
  cases hf : o.form <;>
    simp [hf, Layout.ofForm, Layout.Filled, e0, e1, e2, Form.kind0, Form.kind1, Form.kind2]

/-- Up to its first comma a text has one reading. -/
theorem split_at_comma {a a' b b' : Text} (ha : ',' ∉ a) (ha' : ',' ∉ a') (h : a ++ ',' :: b = a' ++ ',' :: b') :
    a = a' ∧ b = b' := by
  have hlen : a.length = a'.length := by
    simpa [List.idxOf_append_of_notMem ha, List.idxOf_append_of_notMem ha'] using congrArg (List.idxOf ',') h
  obtain ⟨hfst, hsnd⟩ := List.append_inj h hlen
  exact ⟨hfst, (List.cons.inj hsnd).2⟩

/-- Fragments hold no comma, so a layout's text determines the fragments it was made from. -/
theorem Layout.join_inj {L : Layout} {a b c a' b' c' : Text} (ha : ',' ∉ a) (hb : ',' ∉ b) (ha' : ',' ∉ a')
    (hb' : ',' ∉ b') (hfill : L.Filled a b c) (hfill' : L.Filled a' b' c') (h : L.join a b c = L.join a' b' c') :
    a = a' ∧ b = b' ∧ c = c' := by
  cases L with
  | empty =>
    obtain ⟨rfl, rfl, rfl⟩ := hfill
    obtain ⟨rfl, rfl, rfl⟩ := hfill'
    exact ⟨rfl, rfl, rfl⟩
  | one =>
    obtain ⟨-, rfl, rfl⟩ := hfill
    obtain ⟨-, rfl, rfl⟩ := hfill'
    exact ⟨h, rfl, rfl⟩
  | two =>
    obtain ⟨-, -, rfl⟩ := hfill
    obtain ⟨-, -, rfl⟩ := hfill'
    have h : a ++ ',' :: ' ' :: b = a' ++ ',' :: ' ' :: b' := by simpa [join, join2] using h
    obtain ⟨rfl, htail⟩ := split_at_comma ha ha' h
    exact ⟨rfl, (List.cons.inj htail).2, rfl⟩
  | three =>
    have h : a ++ ',' :: ' ' :: (b ++ ',' :: ' ' :: c) = a' ++ ',' :: ' ' :: (b' ++ ',' :: ' ' :: c') := by
      simpa [join, join3] using h
    obtain ⟨rfl, htail⟩ := split_at_comma ha ha' h
    obtain ⟨rfl, hlast⟩ := split_at_comma hb hb' (List.cons.inj htail).2
    exact ⟨rfl, rfl, (List.cons.inj hlast).2⟩
  | memory =>
    have h : a ++ ',' :: ' ' :: '[' :: (b ++ ',' :: ' ' :: (c ++ [']']))
        = a' ++ ',' :: ' ' :: '[' :: (b' ++ ',' :: ' ' :: (c' ++ [']'])) := by
      simpa [join, joinMem] using h
    obtain ⟨rfl, htail⟩ := split_at_comma ha ha' h
    obtain ⟨rfl, hlast⟩ := split_at_comma hb hb' (List.cons.inj (List.cons.inj htail).2).2
    exact ⟨rfl, rfl, List.append_cancel_right (List.cons.inj hlast).2⟩

/-! ### The form that a mnemonic and its operands imply -/

/-- An operand after the first is an immediate. -/
def OdeOut.hasImm (o : OdeOut) : Bool := decide (o.op1.kind = .imm ∨ o.op2.kind = .imm)

/-- The form of a mnemonic, by whether there is an immediate (R132, R133). -/
def formOf (m : Mnemonic) (imm : Bool) : Form :=
  match m with
  | .unknown => .none
  | .ldr | .str => bif imm then .memi else .memr
  | .bzs | .bzc | .bcs | .bcc | .bge | .blt | .b | .bl => .br
  | .mov => bif imm then .movi else .hi2
  | .movt => .movi
  | .add | .sub => bif imm then .ri4 else .r3
  | .adc | .sbc | .and | .orr | .eor => .r3
  | .cmp => .cmp
  | .mvn | .movs => .hi2
  | .msr => .msr
  | .mrs => .mrs
  | .lsl | .lsr => .sh

/-- Whether there is an immediate does not change the layout, so the mnemonic alone gives it. -/
theorem layout_formOf (m : Mnemonic) (imm imm' : Bool) :
    Layout.ofForm (formOf m imm) = Layout.ofForm (formOf m imm') := by
  cases m <;> cases imm <;> cases imm' <;> rfl

theorem exec_form {i : Instr} {p : Pattern} {s : State} {out : OdeOut} (hp : i.pattern = some p)
    (he : exec i s = .next (s.driveOde out)) : out.form = formOf out.mnem out.hasImm := by
  cases i with
  | bfGet | bfSet => cases hp
  | _ =>
    rw [← next_driveOde_inj he]
    rfl

theorem ode_form (w pc : Word16) : (ode w pc).form = formOf (ode w pc).mnem (ode w pc).hasImm := by
  obtain ⟨p, hp, -⟩ := decodeWord_row w
  exact exec_form hp (exec_decodeWord w { State.reset with odeIn := ⟨w, pc⟩ })

theorem ode_shaped (w pc : Word16) : (ode w pc).Shaped := (odeWith_wellDriven Params.spec w pc).shaped

theorem ode_bounded (w pc : Word16) : (ode w pc).Bounded :=
  (odeWith_wellDriven Params.spec w pc).bounded (by decide)

theorem hasImm_congr {o o' : OdeOut} (h1 : frag o.op1 = frag o'.op1) (h2 : frag o.op2 = frag o'.op2) :
    o.hasImm = o'.hasImm := by
  simp only [OdeOut.hasImm, ← (frag_head _).2, h1, h2]

/-! ### Clean text (R134) -/

theorem cleanText_iff (t : Text) :
    cleanText t = true ↔ (∀ c ∈ t, c.toNat < 128) ∧ t.getLast? ≠ some ' ' ∧ t.getLast? ≠ some ',' := by
  simp [cleanText, and_assoc]

theorem cleanText_of_fragmentText {t : Text} (h : FragmentText t) : cleanText t = true :=
  (cleanText_iff t).2 ⟨h.ascii, fun hl => (h _ (List.mem_of_getLast? hl)).2.1 rfl,
    fun hl => (h _ (List.mem_of_getLast? hl)).2.2 rfl⟩

theorem cleanText_append {a b : Text} (ha : ∀ c ∈ a, c.toNat < 128) (hb : cleanText b = true) (hne : b ≠ []) :
    cleanText (a ++ b) = true := by
  rw [cleanText_iff] at hb ⊢
  rw [List.getLast?_append_of_ne_nil _ hne]
  exact ⟨List.forall_mem_append.2 ⟨ha, hb.1⟩, hb.2⟩

theorem mtext_clean (m : Mnemonic) : cleanText (mtext m) = true := by
  cases m <;> decide

/-- The table of R67 read from its column of texts. -/
def mnemonicOfText (t : Text) : Option Mnemonic := (mnemonicTable.find? fun p => p.2.2.toList = t).map fun p => p.1

theorem mnemonicOfText_mtext (m : Mnemonic) : mnemonicOfText (mtext m) = some m := by
  cases m <;> decide

theorem mtext_injective : Function.Injective mtext := fun m m' h =>
  Option.some.inj (by rw [← mnemonicOfText_mtext m, h, mnemonicOfText_mtext])

/-- A layout ends in a fragment that is not empty, or in the bracket. -/
theorem Layout.join_clean {L : Layout} {a b c : Text} (ha : FragmentText a) (hb : FragmentText b) (hc : FragmentText c)
    (hfill : L.Filled a b c) : cleanText (L.join a b c) = true := by
  have hcomma : ∀ x ∈ ", ".toList, x.toNat < 128 := by simp
  have hopen : ∀ x ∈ ", [".toList, x.toNat < 128 := by simp
  cases L with
  | empty => rfl
  | one => exact cleanText_of_fragmentText ha
  | two =>
    obtain ⟨-, hbne, -⟩ := hfill
    exact cleanText_append (by simp only [List.forall_mem_append]; exact ⟨ha.ascii, hcomma⟩)
      (cleanText_of_fragmentText hb) hbne
  | three =>
    obtain ⟨-, -, hcne⟩ := hfill
    exact cleanText_append (by simp only [List.forall_mem_append]; exact ⟨⟨⟨ha.ascii, hcomma⟩, hb.ascii⟩, hcomma⟩)
      (cleanText_of_fragmentText hc) hcne
  | memory =>
    exact cleanText_append
      (by simp only [List.forall_mem_append]; exact ⟨⟨⟨⟨ha.ascii, hopen⟩, hb.ascii⟩, hcomma⟩, hc.ascii⟩)
      (by decide) (by decide)

/-! ### The bytes of a word (R22) -/

theorem HexRecord.bytesAt_of_take {r : HexRecord} {k : Nat} {lo hi : Byte}
    (h : (r.payload.drop (2 * k)).take 2 = [lo, hi]) : r.bytesAt k = some (lo, hi) := by
  have hdrop : r.payload.drop (2 * k) = [lo, hi] ++ (r.payload.drop (2 * k)).drop 2 := by
    rw [← h, List.take_append_drop]
  rw [HexRecord.bytesAt, hdrop]
  rfl

/-! ### The statements -/

/-- Settles O51. The target is below 1024, so its first digit is 0 and its second at most 3. -/
theorem branchTextIsFourHexDigitsOfTheTarget : Obligations.BranchTextIsFourHexDigitsOfTheTarget := by
  refine ⟨fun w pc hcls => ?_, fun v => ⟨hex4_length v, fun c hc => ?_⟩, fun v v' h => hex4_injective h⟩
  · refine ⟨branchTarget pc (fieldOff10 w), ?_, ?_, hex4_first_digits (branchTarget_lt pc _)⟩
    · rw [branchTarget_toNat, off10_toNat]
    · rw [ode_branch pc ((fieldCls_eq w).trans hcls)]
      rfl
  · obtain ⟨d, rfl⟩ := mem_hex4 hc
    exact hexDigit_mem d

/-- Settles O52. The mnemonic's text names it and gives the layout, the layout's text gives the fragments, these tell whether there is an
immediate and so the form, and within the kinds of the form a fragment names its operand. -/
theorem renderedTextDeterminesTheInstruction : Obligations.RenderedTextDeterminesTheInstruction := by
  intro w pc w' pc' h
  obtain ⟨hmtext, htext⟩ := Prod.mk.inj h
  have hmnem := mtext_injective hmtext
  have hform := ode_form w pc
  have hform' := ode_form w' pc'
  rw [← hmnem] at hform'
  have hlayout : Layout.ofForm (ode w pc).form = Layout.ofForm (ode w' pc').form := by
    rw [hform, hform', layout_formOf]
  have hfill := (ode_shaped w pc).filled
  rw [operandsText_eq, operandsText_eq, hlayout] at htext
  rw [hlayout] at hfill
  obtain ⟨h0, h1, h2⟩ := Layout.join_inj (comma_notMem_frag _) (comma_notMem_frag _) (comma_notMem_frag _)
    (comma_notMem_frag _) hfill (ode_shaped w' pc').filled htext
  have hform : (ode w pc).form = (ode w' pc').form := by rw [hform, hform', hasImm_congr h1 h2]
  obtain ⟨-, hk0, hk1, hk2, -⟩ := ode_shaped w pc
  obtain ⟨-, hk0', hk1', hk2', -⟩ := ode_shaped w' pc'
  obtain ⟨hb0, hb1, hb2⟩ := ode_bounded w pc
  obtain ⟨hb0', hb1', hb2'⟩ := ode_bounded w' pc'
  exact ⟨hmnem, hform, operand_eq_of_frag_eq (by rw [hk0, hk0', hform]) h0 hb0 hb0',
    operand_eq_of_frag_eq (by rw [hk1, hk1', hform]) h1 hb1 hb1',
    operand_eq_of_frag_eq (by rw [hk2, hk2', hform]) h2 hb2 hb2'⟩

/-- Settles O53. Mnemonics are clean by their table, and a layout ends in a fragment or a bracket. -/
theorem renderedTextIsCleanAscii : Obligations.RenderedTextIsCleanAscii := by
  intro w pc
  refine ⟨mtext_clean _, ?_⟩
  rw [render, operandsText_eq]
  exact Layout.join_clean (frag_fragmentText _) (frag_fragmentText _) (frag_fragmentText _) (ode_shaped w pc).filled

/-- Settles O50. The kinds of the form pick the fragments, and the layout of the form joins them. -/
theorem operandTextOfEveryForm : Obligations.OperandTextOfEveryForm := by
  intro c m x y z
  have hrender (f : Form) : render (emit c m f x y z)
      = (mtext m, (Layout.ofForm f).join (frag ⟨f.kind0, x⟩) (frag ⟨f.kind1, y⟩) (frag ⟨f.kind2, z⟩)) := by
    rw [render, operandsText_eq]
    rfl
  exact ⟨rfl, hrender .memi, hrender .memr, hrender .br, hrender .movi, hrender .r3, hrender .ri4, hrender .cmp,
    hrender .hi2, hrender .msr, hrender .mrs, hrender .sh⟩

/-- Settles O55. -/
theorem fragmentsReadAsTheirKindsSay : Obligations.FragmentsReadAsTheirKindsSay := by
  have hdecimal {n : Nat} (hn : n ≤ 16) (x : BitVec n) : isDecimal (decimal (x.setWidth 16)) x.toNat = true := by
    have hx := isDecimal_decimal (x.setWidth 16)
    rwa [BitVec.toNat_setWidth_of_le hn] at hx
  refine ⟨fun r => ⟨_, rfl, hdecimal (by omega) r⟩, fun r => ?_, fun n => ⟨_, rfl, hdecimal (by omega) n⟩,
    hex4_eq_hexDigits, hex2_eq_hexDigits, rfl, rfl⟩
  have hval (k : Nat) (hk : k < 16) : r.setWidth 16 = BitVec.ofNat 16 k ↔ r.toNat = k := by
    rw [← BitVec.toNat_inj, BitVec.toNat_setWidth_of_le (by omega), BitVec.toNat_ofNat, Nat.mod_eq_of_lt (by omega)]
  simp only [fragRegAlias, hval 15 (by omega), hval 14 (by omega)]

/-- Settles O56. -/
theorem printedLineIsAddressBytesMnemonicOperands : Obligations.PrintedLineIsAddressBytesMnemonicOperands := by
  have hline (l : DisassemblyLine) : l.text = hexDigits l.address.toNat [4096, 256, 16, 1]
      ++ ' ' :: hexDigits l.rawLo.toNat [16, 1] ++ hexDigits l.rawHi.toNat [16, 1] ++ '\t' :: l.mnemonic
      ++ '\t' :: l.operands := by
    simp [DisassemblyLine.text, hex4_eq_hexDigits, hex2_eq_hexDigits]
  exact ⟨hline, fun a lo hi out => hline (lineOf a lo hi out)⟩

/-- Settles O54. The record's word 5 stands at 0x0424; its bytes are the two that are given, and its line is evaluated. -/
theorem sampleRecordLineReadsAsTheSpecWorksItOut : Obligations.SampleRecordLineReadsAsTheSpecWorksItOut := by
  intro s r rest hsel hc hr hpres haddr hidx hbytes
  have hb : r.bytesAt s.wordIndex = some (0x0C#8, 0x5C#8) := by
    rw [hidx]
    exact HexRecord.bytesAt_of_take hbytes
  have ha : r.addressAt s.wordIndex = 0x0424#16 := by
    rw [hidx, HexRecord.addressAt, haddr]
    rfl
  have hstep := step_of_bytesAt hsel hc hr hpres hb
  rw [ha] at hstep
  exact ⟨_, _, hstep, rfl, rfl, by decide⟩

end Sys2Proof.Machine
end
